-- ==== Sys2Proof/Word.lean ====
section
/-! DEFINITION. Bytes, texts and fixed-size tables: the plain data every other file is written over. -/

namespace Sys2Proof

/-- One byte of a frame, a record or a line (01, R2). -/
abbrev Byte := BitVec 8

/-- A text as carried: its characters, one byte each (R36). -/
abbrev Text := List Byte

/-- A fixed number of like things, held as a list of exactly that length. -/
structure Table (α : Type) (n : Nat) where
  cells : List α
  size : cells.length = n
deriving DecidableEq, Repr

def Table.replicate {α : Type} (n : Nat) (a : α) : Table α n :=
  ⟨List.replicate n a, List.length_replicate⟩

def Table.get {α : Type} {n : Nat} (t : Table α n) (i : Fin n) : α :=
  t.cells[i.val]'(by rw [t.size]; exact i.isLt)

def Table.set {α : Type} {n : Nat} (t : Table α n) (i : Fin n) (a : α) : Table α n :=
  ⟨t.cells.set i.val a, by rw [List.length_set]; exact t.size⟩

def Table.map {α β : Type} {n : Nat} (f : α → β) (t : Table α n) : Table β n :=
  ⟨t.cells.map f, by rw [List.length_map]; exact t.size⟩

/-- The largest values of the saturating counters of 8, 16 and 32 bits. -/
def max8 : Nat := 255
def max16 : Nat := 65535
def max32 : Nat := 4294967295

/-- The place of a number counted from 1 (a bin, a grade, a band, a schedule number) in a table of `n + 1` entries. -/
def slot1 (n : Nat) (k : Nat) : Fin (n + 1) := Fin.ofNat (n + 1) (k - 1)

end Sys2Proof
end

