-- ==== Sys2Proof/Syntax.lean ====
section
/-! DEFINITION. The commands of the part: one constructor for each row of spec/opcode_table.json, with the model's operands.
A take of a request carries the port that posted it, since its fields stand in that port's request record (R5, R6). -/

namespace Sys2Proof

/-- The three serial slave ports (00 section 1.1). -/
inductive Port | K | P | Y
deriving DecidableEq, Repr

/-- A kiln, numbered from 0; the manual's kiln number is one more. -/
abbrev KilnNo := Fin 12

/-- What a transfer command reports of its frame (R2, log 3). The kind byte is given by the command itself.
`falls`: the chip select falls. `bytes bs`: the kind byte is complete, if it was not, and then `bs` follow it.
`rises bs`: the same, and then the chip select rises. `empty`: it rises before the kind byte was complete.
Given where no frame is open, `bytes` and `rises` open one at that moment, so `rises` alone is a whole frame. -/
inductive FrameEvent
  | falls
  | bytes (bs : List Byte)
  | rises (bs : List Byte)
  | empty
deriving DecidableEq, Repr

/-- How far a warm start comes before PWRST# falls again (R199): it completes, or it is cut after the Charge Table and the
kiln units, the pack builder, and the trace log with `records` RESTART records, have or have not made their changes. -/
inductive StartEnd
  | completes
  | cut (charges packs : Bool) (records : Nat)
deriving DecidableEq, Repr

/-- One command: a step of the part (95_what_each_step_holds.md). A Bool named `lbsy` is the level of LBSY if the step
samples it (R178), `eye` the level of the EYE line sampled afresh (R117); true is high. -/
inductive Instr
  | post (p : Port) (f : FrameEvent)
  | withdraw (p : Port) (f : FrameEvent)
  | fetch (p : Port) (f : FrameEvent)
  | peek (p : Port) (f : FrameEvent)
  | note (p : Port) (f : FrameEvent)
  | ack (p : Port) (f : FrameEvent)
  | mask (p : Port) (f : FrameEvent)
  | portReset (p : Port) (f : FrameEvent)
  | unknownTransfer (p : Port) (kind : Byte) (f : FrameEvent)
  | answerArrival (p : Port) (which : Nat)
  | claim (p : Port)
  | release (p : Port)
  | seize (p : Port)
  | putSpecies (p : Port)
  | deleteSpecies (p : Port)
  | speciesQuery (p : Port)
  | putSchedule (p : Port)
  | deleteSchedule (p : Port)
  | scheduleQuery (p : Port)
  | putGradeText (p : Port)
  | putLengthBands (p : Port)
  | defineCharge (p : Port)
  | setSamples (p : Port)
  | load (p : Port)
  | unload (p : Port)
  | retireCharge (p : Port)
  | chargeQuery (p : Port)
  | sampleWeights (p : Port)
  | kilnReport (p : Port)
  | start (p : Port)
  | hold (p : Port)
  | resume (p : Port)
  | skipStep (p : Port)
  | stop (p : Port)
  | kilnStatus (p : Port)
  | kilnMinuteExpiry (k : KilnNo)
  | traceRead (p : Port)
  | setTraceMark (p : Port)
  | setClock (p : Port)
  | millClockMinute
  | openRun (p : Port)
  | addSource (p : Port)
  | advanceSource (p : Port)
  | closeRun (p : Port)
  | abortRun (p : Port)
  | boardGrade (p : Port) (lbsy : Bool)
  | putSortEntry (p : Port)
  | removeSortEntry (p : Port)
  | clearSortMap (p : Port)
  | runStatus (p : Port)
  | eyeEdge
  | meterFrame (b : Byte) (framingError : Bool)
  | meterIdleTimeout
  | closeLot (p : Port)
  | convertLot (p : Port)
  | lotQuery (p : Port)
  | setBinTarget (p : Port) (lbsy : Bool)
  | closePack (p : Port) (lbsy : Bool)
  | releasePack (p : Port)
  | packQuery (p : Port)
  | reprint (p : Port) (lbsy : Bool)
  | busCycleComplete (lbsy : Bool) (ld : Byte)
  | lbsyFall
  | printerTimeout
  | haltPrinter (p : Port)
  | resumePrinter (p : Port) (lbsy : Bool)
  | printerStatus (p : Port)
  | putParameter (p : Port)
  | parameterQuery (p : Port)
  | restart (p : Port) (eye lbsy : Bool)
  | powerOnReset
  | coldStart (eye : Bool) (cut : Bool)
  | warmStart (eye lbsy : Bool) (until_ : StartEnd)
  | backupMonitorTrip
  | mainPowerFail (vbkLow : Bool)
  | meterByteReceived (b : Byte) (framingError : Bool)
  | eyeFilteredFall
deriving DecidableEq, Repr

end Sys2Proof
end

