-- ==== Sys2Proof/Decode.lean ====
section
/-! DEFINITION. The command a word of the opcode table spells, and the command a frame spells by its kind byte.
spec/opcode_table.json gives no row any bits ("fields": [] in every row), so no word spells a command (log 27); the kind
bytes of the eight transfers stand in R21. -/

namespace Sys2Proof

/-- The kind byte of each transfer and the transfer it names (R21). -/
def transferTable : List (Byte × (Port → FrameEvent → Instr)) :=
  [(0xC1, .post), (0xC2, .withdraw), (0xC3, .fetch), (0xC4, .peek), (0xC5, .note), (0xC6, .ack), (0xC7, .mask),
    (0xCF, .portReset)]

/-- The eight transfer kind codes of R21. -/
def transferKinds : List Byte := transferTable.map Prod.fst

/-- The first byte of an UNKNOWN_TRANSFER frame is no transfer kind code (R2). -/
def kindIsUnknown (kind : Byte) : Bool := !transferKinds.contains kind

/-- The command that a frame on port `p` with the kind byte `kind` is: the transfer R21 gives the byte, and the frame of an
unknown kind for every other byte (R2). -/
def frameCommand (p : Port) (kind : Byte) (f : FrameEvent) : Instr :=
  match transferTable.find? fun row => row.1 == kind with
  | some row => row.2 p f
  | none => .unknownTransfer p kind f

/-- No row of the table has bits, so every word is refused. -/
def decodeTableWord (nbits w : Nat) : Option Instr :=
  match nbits, w with
  | _, _ => none

end Sys2Proof
end

