-- ==== Sys2Proof/Machine/Names.lean ====
section
/-! DEFINITION. The names the manual gives to states, causes, reasons and kinds, each set as one inductive type. -/

namespace Sys2Proof.Machine

/-- Last result of a port (R21). -/
inductive LastResult
  | blank | ok | slotBusy | tooLate | none | badTransfer | badLength | frameShort
deriving DecidableEq, Repr

/-- The nineteen alert causes (R14). -/
inductive Cause
  | answerReady | claimLost | noteChanged | kilnPhase | kilnDeviation | sensorStale | samplesShort | stepOvertime
  | htCertified | meterState | trackOverrun | chargeWet | packClosed | registerFull | redryFull | printerFault
  | traceMark | strayBoard | restarted
deriving DecidableEq, Repr

/-- What a claim is held on (R23): a kiln, the planer line, the library or the label printer. -/
inductive Resource
  | kiln (k : KilnNo) | planer | library | printer
deriving DecidableEq, Repr

/-- The refusal reasons with the detail each carries (R10). -/
inductive Reason
  | badKind
  | wrongPort
  | notOwner
  | heldBy (owner : Port) (seized : Bool)
  | badField (index : Nat)
  | noSuch
  | noSuchSequence (oldest : Nat)
  | badState
  | tableFull
  | inUse
  | mismatch
  | notMetered
  | unknownBoard
deriving DecidableEq, Repr

/-- The four active phases (00 section 3). -/
inductive Phase | drying | equalizing | conditioning | cooling
deriving DecidableEq, Repr

/-- Why a charge is HELD (R53). -/
inductive HoldReason | command | restart | power
deriving DecidableEq, Repr

/-- The eleven charge states of R53 and section 4.3; HELD carries its held phase and hold reason, which are present in
HELD only. -/
inductive ChargeState
  | staged | loaded
  | active (phase : Phase)
  | held (phase : Phase) (reason : HoldReason)
  | dried | released | planing | planed
deriving DecidableEq, Repr

/-- The state names that answers and trace records show: the eleven, and EMPTY for a kiln without a charge (R74). -/
inductive StateName
  | empty | staged | loaded | drying | equalizing | conditioning | cooling | held | dried | released | planing | planed
deriving DecidableEq, Repr

/-- Sample status (R54); a weighed sample has its current weight and current MC. -/
inductive SampleStatus
  | noReport
  | valid (weight mc : Nat)
  | suspect (weight mc : Nat)
deriving DecidableEq, Repr

/-- The name of a sample status, as answers show it. -/
inductive SampleMark | noReport | valid | suspect
deriving DecidableEq, Repr

/-- Deviation state of a kiln (R74). -/
inductive Deviation | inBand | deviating
deriving DecidableEq, Repr

/-- How part 2 of a minute classes it (R80). -/
inductive MinuteClass | onMinute | offMinute | heldMinute
deriving DecidableEq, Repr

/-- Trace record kinds (section 11.2). -/
inductive TraceKind
  | load | start | phase | skip | hold | resume | deviationOn | deviationOff | staleOn | staleOff | ht | chart | unload | restart
deriving DecidableEq, Repr

/-- No-reading policy of a run (R118). -/
inductive Policy | redry | accept
deriving DecidableEq, Repr

/-- State of a run record (R118). -/
inductive RunState | isOpen | draining
deriving DecidableEq, Repr

/-- The run state RUN STATUS shows (R139). -/
inductive RunStateName | none | isOpen | draining
deriving DecidableEq, Repr

/-- How a run ended (R117). -/
inductive EndKind | closed | aborted
deriving DecidableEq, Repr

/-- Meter state (R118). -/
inductive MeterState | ok | lost
deriving DecidableEq, Repr

/-- Board classes (R112). -/
inductive BoardClass | noReading | wet | overdry | ok
deriving DecidableEq, Repr

/-- Reasons of a sort decision (R135). -/
inductive SortReason | sorted | wet | noReading | gradeZero | unmapped | binBlocked | redryFull
deriving DecidableEq, Repr

/-- State of a redry lot (R142). -/
inductive LotState | isOpen | closed
deriving DecidableEq, Repr

/-- State of a pack (R155). -/
inductive PackState | isOpen | closed | labelQueued | labelled
deriving DecidableEq, Repr

/-- Close cause of a pack (R155). -/
inductive CloseCause | target | targetChange | limit | keyChange | command
deriving DecidableEq, Repr

/-- Label engine state (R171). -/
inductive EngineState | idle | sending | verifying | halted
deriving DecidableEq, Repr

/-- Halt reason (R171). -/
inductive HaltReason | command | timeout | verify
deriving DecidableEq, Repr

/-- Kind of a label job (R171). -/
inductive JobKind | pack | reprint
deriving DecidableEq, Repr

/-- The kind of the most recent power-on start (R198). -/
inductive StartKind | cold | warm
deriving DecidableEq, Repr

/-- Whether the part runs, is between a fall of PWRST# and the end of its start, or has lost main power (R198, R199). -/
inductive PowerPhase | running | starting | off
deriving DecidableEq, Repr

/-- Every named value that an answer or a trace record carries in one byte (R22) and whose number no table of the manual
gives. Config.symByte is that number (log 5). -/
inductive Sym
  | state (n : StateName)
  | phase (p : Phase)
  | holdReason (r : HoldReason)
  | sample (m : SampleMark)
  | deviation (d : Deviation)
  | trace (k : TraceKind)
  | run (n : RunStateName)
  | ended (e : EndKind)
  | meter (m : MeterState)
  | boardClass (c : BoardClass)
  | lot (l : LotState)
  | pack (p : PackState)
  | closeCause (c : CloseCause)
  | engine (e : EngineState)
  | halt (h : HaltReason)
  | job (j : JobKind)
deriving DecidableEq, Repr

/-- The five flags of a charge record (R65). -/
structure ChargeFlags where
  htCertified : Bool
  earlyStop : Bool
  chargeWet : Bool
  redry : Bool
  eqTimeout : Bool
deriving DecidableEq, Repr

/-- What the flags byte of a trace record in a TRACE READ answer carries (R187): the clock-set flag and a presence bit for
each optional item. -/
structure TraceFlags where
  clockSet : Bool
  dryActual : Bool
  wetActual : Bool
  controlling : Bool
  minCore : Bool
deriving DecidableEq, Repr

end Sys2Proof.Machine
end

