-- ==== Sys2Proof/Config.lean ====
section
/-! DEFINITION. The free values: encodings the manual leaves open, each an opaque constant about which nothing can be proved
(logs 5 to 9 and 22), and the capacities the manual fixes. -/

namespace Sys2Proof.Config

open Sys2Proof.Machine

/-- The one byte a named value is sent as, where no table of the manual numbers it (R22, log 5). -/
opaque symByte : Sym → Byte

/-- Byte `i` of an absent field of `width` bytes in an answer: section 4.5 says it is reported as absent, not as zero, and
gives no bytes (log 6). -/
opaque absentByte : (width i : Nat) → Byte

/-- The byte that carries the five flags of CHARGE QUERY (R69, log 7). -/
opaque chargeFlagsByte : ChargeFlags → Byte

/-- The byte that carries bin and state of a pack in the register listing (R168, log 8). -/
opaque binStateByte : (bin : Nat) → PackState → Byte

/-- The flags byte of a trace record (R187, log 9). -/
opaque traceFlagsByte : TraceFlags → Byte

/-- Digit `i` of the four printed for a year above 9999 (R175, log 22). -/
opaque lateYearDigit : (year i : Nat) → Byte

/-- Entries of the Charge Table (R52). -/
def chargeEntries : Nat := 32
/-- Entries of the redry lot table (R142). -/
def lotEntries : Nat := 4
/-- Entries of the pack register (R154). -/
def packEntries : Nat := 64
/-- Places of the label queue (R171). -/
def labelPlaces : Nat := 8
/-- Records of the trace ring (R186). -/
def ringRecords : Nat := 2048
/-- Entries of the sort map (R137). -/
def sortEntries : Nat := 48
/-- Charges of a source list (R118). -/
def sourceEntries : Nat := 3
/-- Boards of queue A and of queue B (R118). -/
def queueABoards : Nat := 16
def queueBBoards : Nat := 48
/-- Entries of the frame history (R118). -/
def historyEntries : Nat := 16
/-- Contributors of a pack or a lot (R142, R155). -/
def contributorEntries : Nat := 4
/-- Pieces at which a pack or a lot closes by itself (R146, R159). -/
def pieceLimit : Nat := 2000
/-- Bytes of an answer body (R9) and of a request body (R1). -/
def bodyBytes : Nat := 248

end Sys2Proof.Config
end

