-- ==== Sys2Proof/Machine/Records.lean ====
section
/-! DEFINITION. The records of every block, item by item as the manual's tables give them. Quantities are natural numbers in
the manual's ranges; only what the manual sends or masks as bits is a bit vector. -/

namespace Sys2Proof.Machine

/-! ## Answers and ports (chapter 1) -/

/-- One item of an answer body. `num`, `int`: a number in so many bytes (R22). `pair`: a dry-bulb and its depression in
three bytes (R22). `text`: a count and its characters (R36). `absent`: an optional field that is absent (section 4.5). -/
inductive Field
  | num (width value : Nat)
  | int (width : Nat) (value : Int)
  | flag (b : Bool)
  | sym (x : Sym)
  | text (t : Text)
  | pair (dry depression : Nat)
  | byte (b : Byte)
  | absent (width : Nat)
  | chargeFlags (f : ChargeFlags)
  | binState (bin : Nat) (st : PackState)
  | traceFlags (f : TraceFlags)
deriving DecidableEq, Repr

/-- Outcome of a request (R9): DONE with its body, or REFUSED with its reason. -/
inductive Verdict
  | done (body : List Field)
  | refused (r : Reason)
deriving DecidableEq, Repr

/-- An answer record (R9): the request kind and tag echoed, and the outcome. -/
structure Answer where
  kind : Byte
  tag : BitVec 16
  verdict : Verdict
deriving DecidableEq, Repr

/-- A request record (R1). -/
structure Request where
  kind : Byte
  tag : BitVec 16
  body : List Byte
deriving DecidableEq, Repr

/-- The request slot (R1): the request record is present in POSTED and TAKEN, the staged answer in DONE_WAITING only. -/
inductive Slot
  | empty
  | posted (r : Request)
  | taken (r : Request)
  | doneWaiting (staged : Answer)
deriving DecidableEq, Repr

/-- What the port unit copies when the kind byte of a frame is complete: the answer buffer (R8) and the 15 bytes of the
status record (R11). -/
structure FrameCopy where
  buffer : Option Answer
  status : List Byte
deriving DecidableEq, Repr

/-- A frame in progress (R2): the status byte sampled at the fall of chip select (R3), the copy taken at the kind byte, the
complete bytes received after the kind byte, the bytes sent so far, and whether a RESTART or a start has cut it (R19, R20). -/
structure OpenFrame where
  status : Byte
  copy : Option FrameCopy
  received : List Byte
  sent : List Byte
  cut : Bool
deriving DecidableEq, Repr

/-- State of one port unit (R1), with the answers handed back and not yet arrived (R6), the frame in progress, and the bytes
the part sent in the last frame that ended (the model's own record of the data-out pin, log 20). -/
structure PortUnit where
  slot : Slot
  ticket : BitVec 32
  buffer : Option Answer
  pending : BitVec 24
  enabled : BitVec 24
  notes : BitVec 4
  errors : Nat
  last : LastResult
  inFlight : List (BitVec 32 × Answer)
  frame : Option OpenFrame
  sent : List Byte
deriving DecidableEq, Repr

structure Ports where
  k : PortUnit
  p : PortUnit
  y : PortUnit
deriving DecidableEq, Repr

/-! ## Claims (chapter 2) -/

/-- A claim record (R23); no owner is FREE. -/
structure ClaimRecord where
  owner : Option Port
  seized : Bool
deriving DecidableEq, Repr

structure Claims where
  kilns : Table ClaimRecord 12
  planer : ClaimRecord
  library : ClaimRecord
  printer : ClaimRecord
deriving DecidableEq, Repr

/-! ## Library (chapters 3 and 12) -/

/-- A present species entry (R37). -/
structure Species where
  code : Nat
  label : Text
  factor : Nat
  offset : Int
  coefficient : Nat
deriving DecidableEq, Repr

/-- A step of a MOISTURE schedule (R42). -/
structure MoistureStep where
  dry : Nat
  depression : Nat
  threshold : Nat
  minOn : Nat
  maxOn : Nat
deriving DecidableEq, Repr

/-- A step of a TIME schedule (R42). -/
structure TimeStep where
  dry : Nat
  depression : Nat
  duration : Nat
deriving DecidableEq, Repr

/-- The steps of a schedule, in the fields of its kind (R41 field 2, R42). -/
inductive Steps
  | moisture (l : List MoistureStep)
  | time (l : List TimeStep)
deriving DecidableEq, Repr

/-- Equalizing settings, header fields 6 to 9 of R41. -/
structure Equalize where
  dry : Nat
  depression : Nat
  band : Nat
  maxOn : Nat
deriving DecidableEq, Repr

/-- Conditioning settings, header fields 11 to 13 of R41. -/
structure Conditioning where
  dry : Nat
  depression : Nat
  minutes : Nat
deriving DecidableEq, Repr

/-- A present schedule (R41, R42). A disabled phase is none; its fields are stored and reported as 0. -/
structure Schedule where
  number : Nat
  finalTarget : Nat
  ramp : Nat
  equalize : Option Equalize
  conditioning : Option Conditioning
  coolEnd : Nat
  coolMax : Nat
  steps : Steps
deriving DecidableEq, Repr

/-- A length band (R50). -/
structure Band where
  bound : Nat
  text : Text
deriving DecidableEq, Repr

/-- The parameter set (R194): parameters 1 to 17 and the header text. -/
structure Params where
  values : Table Nat 17
  header : Text
deriving DecidableEq, Repr

/-- The library (R35); absent entries of the species table and the schedule library are not listed. -/
structure Library where
  species : List Species
  schedules : List Schedule
  inUse : Table Nat 16
  gradeTexts : Table Text 8
  bands : Table Band 8
  params : Params
deriving DecidableEq, Repr

/-! ## Charges (chapter 4) -/

/-- A sample record (R54). -/
structure Sample where
  number : Nat
  greenWeight : Nat
  greenMC : Nat
  ovenDry : Nat
  status : SampleStatus
deriving DecidableEq, Repr

/-- Planer statistics of a charge (R64). -/
structure PlanerStats where
  metered : Nat
  wet : Nat
  overdry : Nat
  mcSum : Nat
  inFlight : Nat
deriving DecidableEq, Repr

/-- Origin list of a redry charge (R68). -/
structure Origin where
  ids : List Nat
  other : Bool
deriving DecidableEq, Repr

/-- A charge record (R53). -/
structure Charge where
  id : Nat
  species : Nat
  thickness : Nat
  volume : Nat
  state : ChargeState
  kiln : Option KilnNo
  schedule : Option Nat
  finalTarget : Option Nat
  samples : List Sample
  controlling : Option Nat
  wettest : Option Nat
  flags : ChargeFlags
  htAccrual : Nat
  stats : PlanerStats
  origin : Option Origin
  refs : Nat
  firstTrace : Option Nat
deriving DecidableEq, Repr

/-- The Charge Table (R52, R56): the present entries and the last-assigned charge id. -/
structure ChargeTable where
  entries : List Charge
  lastId : Nat
deriving DecidableEq, Repr

/-! ## Kiln units (chapter 5) -/

/-- Target in force (R74, R82). -/
structure KilnTarget where
  dry : Nat
  depression : Nat
deriving DecidableEq, Repr

/-- One actual of a kiln report, with its valid flag (R78). -/
structure Actual where
  value : Int
  valid : Bool
deriving DecidableEq, Repr

/-- The last report of a kiln (R74, R78). -/
structure KilnReport where
  dry : Actual
  wet : Actual
  cores : List Int
deriving DecidableEq, Repr

/-- A kiln record (R74). -/
structure Kiln where
  link : Option Nat
  dry : Nat
  wet : Nat
  target : Option KilnTarget
  accumulator : Nat
  step : Nat
  stepOn : Nat
  phaseOn : Nat
  overtime : Bool
  offRun : Nat
  onRun : Nat
  deviation : Deviation
  report : Option KilnReport
  age : Nat
  stale : Bool
  chart : Nat
  timer : Bool
deriving DecidableEq, Repr

/-! ## Planer tracker (chapter 7) -/

/-- A board record (R119). -/
structure Board where
  seq : Nat
  charge : Nat
  reading : Option Nat
  saturated : Bool
  cls : Option BoardClass
deriving DecidableEq, Repr

/-- The six counters of a run (R118). -/
structure RunCounters where
  boardsIn : Nat
  packed : Nat
  redry : Nat
  rejected : Nat
  lost : Nat
  unmetered : Nat
deriving DecidableEq, Repr

/-- The run record (R118). -/
structure Run where
  number : Nat
  state : RunState
  species : Nat
  thickness : Nat
  wetBand : Nat
  dryBand : Nat
  policy : Policy
  sources : List Nat
  nextSeq : Nat
  queueA : List Board
  queueB : List Board
  counters : RunCounters
  aOverrun : Bool
  aUnderrun : Bool
  bOverrun : Bool
  meter : MeterState
  voidRun : Nat
  history : List Bool
deriving DecidableEq, Repr

/-- The last run summary (R117). -/
structure RunSummary where
  number : Nat
  ended : EndKind
  counters : RunCounters
deriving DecidableEq, Repr

/-- A sort map entry (R137). -/
structure SortEntry where
  grade : Nat
  width : Nat
  band : Nat
  bin : Nat
deriving DecidableEq, Repr

/-- One byte held by the meter receiver, with its framing-error status (R129). -/
structure MeterByte where
  byte : Byte
  framingError : Bool
deriving DecidableEq, Repr

/-- State of the planer tracker (R117). -/
structure Tracker where
  run : Option Run
  lastRun : Nat
  summary : Option RunSummary
  stray : Nat
  sortMap : List SortEntry
  eye : Bool
  receiver : List MeterByte
deriving DecidableEq, Repr

/-! ## Redry lots and packs (chapters 8 and 9) -/

/-- A contributor of a lot or a pack (R142, R155). -/
structure Contributor where
  charge : Nat
  pieces : Nat
deriving DecidableEq, Repr

/-- A lot record (R142). -/
structure Lot where
  number : Nat
  species : Nat
  thickness : Nat
  state : LotState
  pieces : Nat
  volume : Nat
  contributors : List Contributor
  other : Nat
deriving DecidableEq, Repr

/-- The redry lot table (R142, R143). -/
structure LotTable where
  lots : List Lot
  last : Nat
deriving DecidableEq, Repr

/-- A bin's target (R152). -/
inductive BinTarget
  | pieces (value : Nat)
  | volume (value : Nat)
deriving DecidableEq, Repr

/-- The key of a pack (R155). -/
structure PackKey where
  species : Nat
  thickness : Nat
  width : Nat
  grade : Nat
  band : Nat
deriving DecidableEq, Repr

/-- A pack record (R155). -/
structure Pack where
  id : Nat
  bin : Nat
  key : PackKey
  state : PackState
  pieces : Nat
  volume : Nat
  contributors : List Contributor
  other : Nat
  metered : Nat
  mcSum : Nat
  mcMin : Option Nat
  mcMax : Option Nat
  overdry : Nat
  unmetered : Nat
  openedAt : Option Nat
  closedAt : Option Nat
  cause : Option CloseCause
  short : Bool
  serial : Option Nat
  reprints : Nat
deriving DecidableEq, Repr

/-- The pack builder (R152, R154). -/
structure PackBuilder where
  targets : Table BinTarget 20
  packs : List Pack
  lastId : Nat
  closeList : List Nat
  blocked : Bool
deriving DecidableEq, Repr

/-! ## Label engine (chapter 10) -/

/-- A label job (R171). -/
structure Job where
  kind : JobKind
  pack : Nat
  serial : Option Nat
deriving DecidableEq, Repr

/-- A bus cycle's kind and the byte it drives (R177). -/
inductive CycleKind
  | address (a : Byte)
  | write (b : Byte)
  | read
deriving DecidableEq, Repr

/-- A bus cycle in progress, with the phase lengths read at its start (R177). -/
structure BusCycle where
  kind : CycleKind
  setup : Nat
  strobe : Nat
  hold : Nat
deriving DecidableEq, Repr

/-- The printer bus (R177, R178): between cycles, waiting for LBSY to fall with the timeout read at the wait's start, or in a
cycle. -/
inductive Bus
  | rest
  | waiting (timeout : Nat)
  | cycle (c : BusCycle)
deriving DecidableEq, Repr

/-- State of the label engine (R171): with the composed fields of the job in progress (R174), the place in the field or the
verify (R179, R180), the verify bytes read so far, and the bus. -/
structure LabelEngine where
  queue : List Job
  state : EngineState
  halt : Option HaltReason
  haltPending : Bool
  field : Option Nat
  lastVerify : Option (List Byte)
  lastSerial : Nat
  fields : List Text
  place : Nat
  reads : List Byte
  bus : Bus
deriving DecidableEq, Repr

/-! ## Trace log, clock and retention (chapters 11 and 12) -/

/-- A trace record (R187); no time is an unset clock. -/
structure TraceRecord where
  seq : Nat
  time : Option Nat
  kiln : KilnNo
  charge : Nat
  kind : TraceKind
  state : StateName
  step : Nat
  dry : Nat
  wet : Nat
  dryActual : Option Int
  wetActual : Option Int
  controlling : Option Nat
  minCore : Option Int
deriving DecidableEq, Repr

/-- The trace log (R186). -/
structure TraceLog where
  ring : List TraceRecord
  next : Nat
  mark : Option Nat
deriving DecidableEq, Repr

/-- The mill clock (R192). -/
structure MillClock where
  minutes : Nat
  isSet : Bool
deriving DecidableEq, Repr

/-- The retention domain's own items (R198) and the power phase (R199). -/
structure Retention where
  marker : Bool
  startKind : StartKind
  phase : PowerPhase
deriving DecidableEq, Repr

end Sys2Proof.Machine
end

