-- ==== Sys2Proof/Machine/Defaults.lean ====
section
/-! DEFINITION. The value of every block at the end of a cold start, each as its chapter's table gives it. -/

namespace Sys2Proof.Machine

/-- The ports whose default enable set holds a cause, as the 24-bit cause sets of R14. -/
def defaultEnable : Port → BitVec 24
  | .K => 0x0408FA
  | .P => 0x066602
  | .Y => 0x05FBDA

/-- The cause set of RESTARTED alone: cause 19 in bit 18 (R21). -/
def restartedSet : BitVec 24 := 0x040000

/-- A port unit at the end of a start (R1, R20): RESTARTED pending. -/
def PortUnit.started (p : Port) : PortUnit :=
  { slot := .empty, ticket := 0, buffer := none, pending := restartedSet &&& defaultEnable p, enabled := defaultEnable p,
    notes := 0, errors := 0, last := .blank, inFlight := [], frame := none, sent := [] }

def Ports.started : Ports := { k := .started .K, p := .started .P, y := .started .Y }

/-- Every claim record FREE with the seized flag 0 (R23, R34). -/
def ClaimRecord.free : ClaimRecord := { owner := none, seized := false }

def Claims.free : Claims :=
  { kilns := .replicate 12 .free, planer := .free, library := .free, printer := .free }

/-- "GRADE" and the grade's digit (R35). -/
def defaultGradeText (n : Nat) : Text := [0x47, 0x52, 0x41, 0x44, 0x45, BitVec.ofNat 8 (0x30 + n)]

def defaultGradeTexts : Table Text 8 :=
  ⟨[defaultGradeText 1, defaultGradeText 2, defaultGradeText 3, defaultGradeText 4,
    defaultGradeText 5, defaultGradeText 6, defaultGradeText 7, defaultGradeText 8], rfl⟩

/-- The length bands after a cold start (R50); each text is the bound in decimal. -/
def defaultBands : Table Band 8 :=
  ⟨[⟨1800, [0x31, 0x38, 0x30, 0x30]⟩, ⟨2400, [0x32, 0x34, 0x30, 0x30]⟩, ⟨3000, [0x33, 0x30, 0x30, 0x30]⟩,
    ⟨3600, [0x33, 0x36, 0x30, 0x30]⟩, ⟨4200, [0x34, 0x32, 0x30, 0x30]⟩, ⟨4800, [0x34, 0x38, 0x30, 0x30]⟩,
    ⟨5400, [0x35, 0x34, 0x30, 0x30]⟩, ⟨7500, [0x37, 0x35, 0x30, 0x30]⟩], rfl⟩

/-- The parameter set's defaults (R194); parameter 10's REDRY is 1. -/
def Params.default : Params :=
  { values := ⟨[30, 30, 10, 10, 560, 30, 30, 30, 40, 1, 100, 50, 12, 2000, 2, 4, 2], rfl⟩, header := [] }

/-- The library after a cold start (R35). -/
def Library.cold : Library :=
  { species := [], schedules := [], inUse := .replicate 16 0, gradeTexts := defaultGradeTexts, bands := defaultBands,
    params := .default }

/-- R73. -/
def ChargeTable.cold : ChargeTable := { entries := [], lastId := 0 }

/-- An EMPTY kiln record after a cold start (R100). -/
def Kiln.cold : Kiln :=
  { link := none, dry := 0, wet := 0, target := none, accumulator := 0, step := 0, stepOn := 0, phaseOn := 0,
    overtime := false, offRun := 0, onRun := 0, deviation := .inBand, report := none, age := 0, stale := false, chart := 0,
    timer := false }

/-- The planer tracker after a cold start, its eye input sampled at the level `eye` (R117). -/
def Tracker.cold (eye : Bool) : Tracker :=
  { run := none, lastRun := 0, summary := none, stray := 0, sortMap := [], eye := eye, receiver := [] }

/-- R151. -/
def LotTable.cold : LotTable := { lots := [], last := 0 }

/-- R170. -/
def PackBuilder.cold : PackBuilder :=
  { targets := .replicate 20 (.pieces 200), packs := [], lastId := 0, closeList := [], blocked := false }

/-- R185. -/
def LabelEngine.cold : LabelEngine :=
  { queue := [], state := .idle, halt := none, haltPending := false, field := none, lastVerify := none, lastSerial := 0,
    fields := [], place := 0, reads := [], bus := .rest }

/-- R186. -/
def TraceLog.cold : TraceLog := { ring := [], next := 1, mark := none }

/-- R192. -/
def MillClock.cold : MillClock := { minutes := 0, isSet := false }

/-- A cold start ends with the marker 1 and the start kind COLD (R198, R199). -/
def Retention.cold : Retention := { marker := true, startKind := .cold, phase := .running }

end Sys2Proof.Machine
end

