-- ==== Sys2Proof/Machine/State.lean ====
section
/-! DEFINITION. The whole state of the part, block by block, with the queue of waiting commands; and the state after reset. -/

namespace Sys2Proof.Machine

/-- Everything the manual gives the part, and `pending`, the queue of commands that wait, first in first out. -/
structure State where
  ports : Ports
  claims : Claims
  library : Library
  charges : ChargeTable
  kilns : Table Kiln 12
  tracker : Tracker
  lots : LotTable
  packs : PackBuilder
  label : LabelEngine
  trace : TraceLog
  clock : MillClock
  retention : Retention
  pending : List Instr
deriving DecidableEq, Repr

/-- Why a command would stop the part. The manual gives no step that stops it: a refusal (R10) is an answer record and a
printer fault (R181) an engine state, so there is no reason to name and no command raises one (log 28). -/
inductive Fault
deriving DecidableEq, Repr

/-- Why the model would give a command no meaning. -/
inductive Refusal
  /-- Raised by an arm of exec for a command the model does not reach yet; safe. No arm raises it now. -/
  | notModelled (mnemonic : String)
deriving DecidableEq, Repr

/-- The part right after a cold start (R20, R199), no command waiting. The manual says the eye input is sampled afresh; this
state takes it as low (log 13). -/
def State.reset : State :=
  { ports := .started, claims := .free, library := .cold, charges := .cold, kilns := .replicate 12 .cold,
    tracker := .cold false, lots := .cold, packs := .cold, label := .cold, trace := .cold, clock := .cold,
    retention := .cold, pending := [] }

end Sys2Proof.Machine
end

