-- ==== Sys2Proof/Machine/Ops.lean ====
section
/-! DEFINITION. The shared operations: arithmetic with its stated rounding and saturation, tables kept by key, the read and the
update of each block, identifiers, and the taking of a request. -/

namespace Sys2Proof.Machine

/-- What a command answers. -/
abbrev Result := Host.Outcome State Fault Refusal

/-! ## Arithmetic (00 section 4.2) -/

/-- A counter that stays at its largest value `m`. -/
def satInc (m n : Nat) : Nat := min m (n + 1)

/-- A sum that stays at its largest value `m`. -/
def satAdd (m a b : Nat) : Nat := min m (a + b)

/-- `n / d` rounded to nearest, halves up (00 section 4.2, non-negative values). -/
def roundHalfUp (n d : Nat) : Nat := (2 * n + d) / (2 * d)

/-- `n / d` rounded to nearest, halves away from zero (00 section 4.2). -/
def roundHalfAway (n : Int) (d : Nat) : Int :=
  if 0 ≤ n then (roundHalfUp n.toNat d : Int) else -(roundHalfUp (-n).toNat d : Int)

/-! ## Records kept in rising key order (log 24) -/

def keyFind {α : Type} (key : α → Nat) (k : Nat) (l : List α) : Option α := l.find? fun a => key a == k

/-- Put `a` in its place, in place of a record of the same key. -/
def keyPut {α : Type} (key : α → Nat) (a : α) : List α → List α
  | [] => [a]
  | b :: l => if key b < key a then b :: keyPut key a l else if key b = key a then a :: l else a :: b :: l

def keyErase {α : Type} (key : α → Nat) (k : Nat) (l : List α) : List α := l.filter fun a => key a != k

def keyModify {α : Type} (key : α → Nat) (k : Nat) (f : α → α) (l : List α) : List α :=
  l.map fun a => if key a = k then f a else a

/-- Keys strictly rising: the order such a table is kept in. -/
def Rising {α : Type} (key : α → Nat) (l : List α) : Prop := l.Pairwise fun a b => key a < key b

/-! ## Identifiers (00 section 4.3, R56, R143, R154) -/

/-- The number after `last` in a count that runs upward and wraps from `m` to 1. -/
def wrapNext (m last : Nat) : Nat := if last < m then last + 1 else 1

/-- The first number after `last` that is not in `used`; `fuel` numbers may be passed over. -/
def firstFree (m : Nat) (used : List Nat) : (fuel : Nat) → (last : Nat) → Nat
  | 0, last => wrapNext m last
  | fuel + 1, last =>
    if used.contains (wrapNext m last) then firstFree m used fuel (wrapNext m last) else wrapNext m last

/-- A new identifier: at most as many numbers are passed over as are in use. -/
def newId (m : Nat) (used : List Nat) (last : Nat) : Nat := firstFree m used used.length last

/-! ## One update for each block -/

def State.withPorts (s : State) (x : Ports) : State := { s with ports := x }
def State.withClaims (s : State) (x : Claims) : State := { s with claims := x }
def State.withLibrary (s : State) (x : Library) : State := { s with library := x }
def State.withCharges (s : State) (x : ChargeTable) : State := { s with charges := x }
def State.withKilns (s : State) (x : Table Kiln 12) : State := { s with kilns := x }
def State.withTracker (s : State) (x : Tracker) : State := { s with tracker := x }
def State.withLots (s : State) (x : LotTable) : State := { s with lots := x }
def State.withPacks (s : State) (x : PackBuilder) : State := { s with packs := x }
def State.withLabel (s : State) (x : LabelEngine) : State := { s with label := x }
def State.withTrace (s : State) (x : TraceLog) : State := { s with trace := x }
def State.withClock (s : State) (x : MillClock) : State := { s with clock := x }
def State.withRetention (s : State) (x : Retention) : State := { s with retention := x }
def State.withPending (s : State) (x : List Instr) : State := { s with pending := x }

/-! ## Reads and updates inside a block -/

def Ports.get (u : Ports) : Port → PortUnit
  | .K => u.k
  | .P => u.p
  | .Y => u.y

def Ports.set (u : Ports) (p : Port) (x : PortUnit) : Ports :=
  match p with
  | .K => { u with k := x }
  | .P => { u with p := x }
  | .Y => { u with y := x }

def Ports.map (u : Ports) (f : Port → PortUnit → PortUnit) : Ports :=
  { k := f .K u.k, p := f .P u.p, y := f .Y u.y }

def State.port (s : State) (p : Port) : PortUnit := s.ports.get p

def State.setPort (s : State) (p : Port) (x : PortUnit) : State := s.withPorts (s.ports.set p x)

def Claims.get (c : Claims) : Resource → ClaimRecord
  | .kiln k => c.kilns.get k
  | .planer => c.planer
  | .library => c.library
  | .printer => c.printer

def Claims.set (c : Claims) (r : Resource) (x : ClaimRecord) : Claims :=
  match r with
  | .kiln k => { c with kilns := c.kilns.set k x }
  | .planer => { c with planer := x }
  | .library => { c with library := x }
  | .printer => { c with printer := x }

def Claims.map (c : Claims) (f : ClaimRecord → ClaimRecord) : Claims :=
  { kilns := c.kilns.map f, planer := f c.planer, library := f c.library, printer := f c.printer }

def State.claim (s : State) (r : Resource) : ClaimRecord := s.claims.get r

def State.setClaim (s : State) (r : Resource) (x : ClaimRecord) : State := s.withClaims (s.claims.set r x)

def State.kiln (s : State) (k : KilnNo) : Kiln := s.kilns.get k

def State.setKiln (s : State) (k : KilnNo) (x : Kiln) : State := s.withKilns (s.kilns.set k x)

/-- The present entry with a charge id (R52). -/
def State.charge (s : State) (id : Nat) : Option Charge := keyFind Charge.id id s.charges.entries

/-- Change the charge record with id `id`; nothing where no present entry holds it (log 19). -/
def State.modifyCharge (s : State) (id : Nat) (f : Charge → Charge) : State :=
  s.withCharges { s.charges with entries := keyModify Charge.id id f s.charges.entries }

/-- The charge linked to a kiln (R55). -/
def State.kilnCharge (s : State) (k : KilnNo) : Option Charge := (s.kiln k).link.bind s.charge

def State.species (s : State) (code : Nat) : Option Species := keyFind Species.code code s.library.species

def State.schedule (s : State) (n : Nat) : Option Schedule := keyFind Schedule.number n s.library.schedules

def State.inUse (s : State) (n : Nat) : Nat := s.library.inUse.get (slot1 15 n)

def State.setInUse (s : State) (n count : Nat) : State :=
  s.withLibrary { s.library with inUse := s.library.inUse.set (slot1 15 n) count }

/-- Parameter `n` of 1 to 17 as it stands (R194). -/
def State.param (s : State) (n : Nat) : Nat := s.library.params.values.get (slot1 16 n)

def State.lot (s : State) (n : Nat) : Option Lot := keyFind Lot.number n s.lots.lots

def State.pack (s : State) (id : Nat) : Option Pack := keyFind Pack.id id s.packs.packs

def State.modifyPack (s : State) (id : Nat) (f : Pack → Pack) : State :=
  s.withPacks { s.packs with packs := keyModify Pack.id id f s.packs.packs }

/-- The OPEN pack of a bin (R152). -/
def State.openPack (s : State) (bin : Nat) : Option Pack :=
  s.packs.packs.find? fun q => q.bin == bin && q.state == .isOpen

def State.target (s : State) (bin : Nat) : BinTarget := s.packs.targets.get (slot1 19 bin)

/-- The mill clock as its users stamp it: no time while it is unset (R192). -/
def MillClock.stamp (c : MillClock) : Option Nat := if c.isSet then some c.minutes else none

/-! ## Names of states -/

def Phase.name : Phase → StateName
  | .drying => .drying
  | .equalizing => .equalizing
  | .conditioning => .conditioning
  | .cooling => .cooling

def ChargeState.name : ChargeState → StateName
  | .staged => .staged
  | .loaded => .loaded
  | .active ph => ph.name
  | .held _ _ => .held
  | .dried => .dried
  | .released => .released
  | .planing => .planing
  | .planed => .planed

/-- The state of a kiln record shown to masters: EMPTY, or the state of the linked charge (R74). -/
def State.kilnState (s : State) (k : KilnNo) : StateName :=
  match s.kilnCharge k with
  | some c => c.state.name
  | none => .empty

/-- The kiln number of a kiln (1 to 12). -/
def kilnNumber (k : KilnNo) : Nat := k.val + 1

/-- The kiln of a kiln number. -/
def kilnOfNumber (n : Nat) : KilnNo := Fin.ofNat 12 (n - 1)

/-! ## Contributors of a lot or a pack (R145, R158) -/

/-- Whether a charge is listed. -/
def lists (cs : List Contributor) (id : Nat) : Bool := cs.any fun c => c.charge == id

/-- What a board of charge `id` does to the contributors and the other pieces of a record: its contributor's count rises, or
the charge is appended while fewer than four are listed, or the other pieces rise. -/
def joinPieces (cs : List Contributor) (other id : Nat) : List Contributor × Nat :=
  if lists cs id then (cs.map fun c => if c.charge = id then { c with pieces := c.pieces + 1 } else c, other)
  else if cs.length < Config.contributorEntries then (cs ++ [⟨id, 1⟩], other)
  else (cs, other + 1)

/-- Whether that join lists the charge anew, so that its reference count rises by one (R66). -/
def joinLists (cs : List Contributor) (id : Nat) : Bool :=
  !lists cs id && decide (cs.length < Config.contributorEntries)

/-- Raise or lower the reference count of a charge (R66). -/
def State.addRef (s : State) (id : Nat) : State := s.modifyCharge id fun c => { c with refs := c.refs + 1 }
def State.dropRef (s : State) (id : Nat) : State := s.modifyCharge id fun c => { c with refs := c.refs - 1 }

/-- Lower the reference count of every contributor by one (R148, R165). -/
def State.dropRefs (s : State) (cs : List Contributor) : State := cs.foldl (fun t c => t.dropRef c.charge) s

/-! ## Events and takes -/

/-- An event of a block: it happens while the part runs, and from the fall of PWRST# or of main power until a start completes
no block has one (R199). -/
def event (f : State → State) (s : State) : Result :=
  .next (if s.retention.phase = .running then f s else s)

/-- Hand an answer back to the port unit with the ticket of the request it answers; the slot is TAKEN (R6). -/
def State.handBack (s : State) (p : Port) (r : Request) (v : Verdict) : State :=
  s.setPort p { s.port p with
    slot := .taken r
    inFlight := (s.port p).inFlight ++ [((s.port p).ticket, { kind := r.kind, tag := r.tag, verdict := v })] }

/-- What an owning block does with a request: refuse it, or change the state and give the DONE body. -/
abbrev Act := Port → Request → State → Except Reason (State × List Field)

/-- The state after a block has acted on a request and handed its answer back; a REFUSED request leaves every block as it
was (R6, R9). -/
def answered (act : Act) (p : Port) (r : Request) (s : State) : State :=
  match act p r s with
  | .ok (t, body) => t.handBack p r (.done body)
  | .error e => s.handBack p r (.refused e)

/-- The request of kind `code` POSTED at a port, which is what an owning block is offered. -/
def State.offered (s : State) (p : Port) (code : Byte) : Option Request :=
  match (s.port p).slot with
  | .posted r => if r.kind = code then some r else none
  | _ => none

/-- The take of a request of kind `code` POSTED at port `p`: a block offered a request that is no longer POSTED takes
nothing (R6). -/
def takeRequest (code : Byte) (act : Act) (p : Port) : State → Result :=
  event fun s =>
    match s.offered p code with
    | some r => answered act p r s
    | none => s

/-- Go on, or refuse for `e`. -/
def require (c : Bool) (e : Reason) : Except Reason Unit := if c then .ok () else .error e

/-- The value, or the refusal `e` where there is none. -/
def orRefuse {α : Type} (x : Option α) (e : Reason) : Except Reason α :=
  match x with
  | some a => .ok a
  | none => .error e

/-- The claim check at the take (R28). -/
def claimCheck (res : Resource) (p : Port) (s : State) : Except Reason Unit :=
  require ((s.claim res).owner == some p) .notOwner

end Sys2Proof.Machine
end

