-- ==== Sys2Proof/Machine/Calendar.lean ====
section
/-! DEFINITION. The Gregorian calendar of the mill clock and the labels (R175, R193). -/

namespace Sys2Proof.Machine

/-- A date and time to the minute. -/
structure DateTime where
  year : Nat
  month : Nat
  day : Nat
  hour : Nat
  minute : Nat
deriving DecidableEq, Repr

/-- A year is a leap year when it divides by 4 and not by 100, or when it divides by 400 (R175). -/
def isLeap (y : Nat) : Bool := (y % 4 == 0 && y % 100 != 0) || y % 400 == 0

def yearDays (y : Nat) : Nat := if isLeap y then 366 else 365

/-- The days of the twelve months of a year. -/
def monthLengths (y : Nat) : List Nat :=
  [31, if isLeap y then 29 else 28, 31, 30, 31, 30, 31, 31, 30, 31, 30, 31]

/-- The length of month `m` of 1 to 12. -/
def monthDays (y m : Nat) : Nat := (monthLengths y).getD (m - 1) 31

/-- Days from 2000-01-01 to the first day of the year `2000 + n`. -/
def daysBeforeYear : (n : Nat) → Nat
  | 0 => 0
  | n + 1 => daysBeforeYear n + yearDays (2000 + n)

/-- Days of the year before month `m`. -/
def daysBeforeMonth (y m : Nat) : Nat := ((monthLengths y).take (m - 1)).sum

/-- Minutes from 2000-01-01 00:00 (R193). -/
def minutesOf (d : DateTime) : Nat :=
  (daysBeforeYear (d.year - 2000) + daysBeforeMonth d.year d.month + (d.day - 1)) * 1440 + d.hour * 60 + d.minute

/-- The year, and the days since its first day, of a day counted from the first day of year `y`. -/
def yearOfDay : (fuel y days : Nat) → Nat × Nat
  | 0, y, days => (y, days)
  | fuel + 1, y, days => if days < yearDays y then (y, days) else yearOfDay fuel (y + 1) (days - yearDays y)

/-- The month, and the days since its first day, of a day counted from the first day of month `m`. -/
def monthOfDay : (lengths : List Nat) → (m days : Nat) → Nat × Nat
  | [], m, days => (m, days)
  | n :: rest, m, days => if days < n then (m, days) else monthOfDay rest (m + 1) (days - n)

/-- The date and time so many minutes after 2000-01-01 00:00 (R175). -/
def dateOf (minutes : Nat) : DateTime :=
  let days := minutes / 1440
  let (year, inYear) := yearOfDay (days / 365 + 1) 2000 days
  let (month, inMonth) := monthOfDay (monthLengths year) 1 inYear
  { year := year, month := month, day := inMonth + 1, hour := minutes % 1440 / 60, minute := minutes % 60 }

end Sys2Proof.Machine
end

