-- ==== Sys2Proof/Machine/Operands.lean ====
section
/-! DEFINITION. The operand forms: reading the fields of every request body in field order (R9, R22, R36), and laying an answer
record out in bytes (R21, R22). A reader answers the value, or the index of the first bad field. -/

namespace Sys2Proof.Machine

/-! ## Numbers in bytes -/

/-- A number sent most significant byte first (R21). -/
def beNat (bs : List Byte) : Nat := bs.foldl (fun n b => n * 256 + b.toNat) 0

/-- The low `w` bytes of a number, most significant first. -/
def beBytes : (w : Nat) → (n : Nat) → List Byte
  | 0, _ => []
  | w + 1, n => beBytes w (n / 256) ++ [BitVec.ofNat 8 n]

/-- The signed value of a `w`-byte number in two's complement (R22). -/
def signedOf (w n : Nat) : Int := if n < 2 ^ (8 * w - 1) then (n : Int) else (n : Int) - 2 ^ (8 * w)

/-- A signed number in `w` bytes, in two's complement (R22). -/
def unsignedOf (w : Nat) (v : Int) : Nat := (v % 2 ^ (8 * w)).toNat

/-! ## Reading a body -/

/-- What is left of a body, and the index of the field that comes next (R9). -/
structure Cursor where
  rest : List Byte
  index : Nat
deriving DecidableEq, Repr

/-- A reader of some fields. -/
abbrev Reader (α : Type) := Cursor → Except Nat (α × Cursor)

/-- The fields of a body, from field 1. -/
def fieldsOf (body : List Byte) : Cursor := { rest := body, index := 1 }

/-- A field of `w` bytes; absent or cut short when the body ends inside it (R22). -/
def readBytes (w : Nat) : Reader (List Byte) := fun c =>
  if c.rest.length < w then .error c.index
  else .ok (c.rest.take w, { rest := c.rest.drop w, index := c.index + 1 })

/-- A number of `w` bytes that `ok` accepts. -/
def readNatIf (w : Nat) (ok : Nat → Bool) : Reader Nat := fun c =>
  match readBytes w c with
  | .error i => .error i
  | .ok (bs, c') => if ok (beNat bs) then .ok (beNat bs, c') else .error c.index

/-- A number of `w` bytes in a range. -/
def readNat (w lo hi : Nat) : Reader Nat := readNatIf w fun n => decide (lo ≤ n) && decide (n ≤ hi)

/-- A number of `w` bytes in a range or equal to one further value (R50, R121). -/
def readNatOr (w lo hi other : Nat) : Reader Nat :=
  readNatIf w fun n => (decide (lo ≤ n) && decide (n ≤ hi)) || n == other

/-- A signed number of `w` bytes in a range. -/
def readInt (w : Nat) (lo hi : Int) : Reader Int := fun c =>
  match readBytes w c with
  | .error i => .error i
  | .ok (bs, c') =>
    if lo ≤ signedOf w (beNat bs) ∧ signedOf w (beNat bs) ≤ hi then .ok (signedOf w (beNat bs), c') else .error c.index

/-- A flag, 0 or 1. -/
def readFlag : Reader Bool := fun c =>
  match readNat 1 0 1 c with
  | .error i => .error i
  | .ok (n, c') => .ok (n == 1, c')

/-- A character of the printable range 0x20 to 0x7E (R36). -/
def printable (b : Byte) : Bool := decide (0x20 ≤ b.toNat) && decide (b.toNat ≤ 0x7E)

/-- A text field of `lo` to `hi` characters: a count and the characters, one field (R36). -/
def readText (lo hi : Nat) : Reader Text := fun c =>
  match c.rest with
  | [] => .error c.index
  | n :: r =>
    if lo ≤ n.toNat ∧ n.toNat ≤ hi ∧ n.toNat ≤ r.length ∧ (r.take n.toNat).all printable = true then
      .ok (r.take n.toNat, { rest := r.drop n.toNat, index := c.index + 1 })
    else .error c.index

/-- A dry-bulb and its depression in three bytes, two fields (R22); ranges 200 to 1100 and 0 to 400 where `checked`. -/
def readPair (checked : Bool) : Reader (Nat × Nat) := fun c =>
  if c.rest.length < 3 then .error c.index
  else
    let n := beNat (c.rest.take 3)
    if checked && !(decide (200 ≤ n / 4096) && decide (n / 4096 ≤ 1100)) then .error c.index
    else if checked && !decide (n % 4096 ≤ 400) then .error (c.index + 1)
    else .ok ((n / 4096, n % 4096), { rest := c.rest.drop 3, index := c.index + 2 })

/-- `n` items one after the other. -/
def readMany {α : Type} (item : Reader α) : (n : Nat) → Reader (List α)
  | 0 => fun c => .ok ([], c)
  | n + 1 => fun c =>
    match item c with
    | .error i => .error i
    | .ok (a, c') =>
      match readMany item n c' with
      | .error i => .error i
      | .ok (l, c'') => .ok (a :: l, c'')

/-- A refusal BAD_FIELD with the index of the first bad field (R9). -/
def fields {α : Type} : Except Nat α → Except Reason α
  | .ok a => .ok a
  | .error i => .error (.badField i)

/-! ## The bodies of the requests -/

/-- One number alone. -/
def readOne (w lo hi : Nat) (b : List Byte) : Except Nat Nat := do
  let (n, _) ← readNat w lo hi (fieldsOf b)
  return n

/-- The resource of a resource code of 1 to 15 (R23). -/
def resourceOf (code : Nat) : Resource :=
  if code ≤ 12 then .kiln (kilnOfNumber code)
  else if code = 13 then .planer
  else if code = 14 then .library
  else .printer

/-- The code of a resource (R23). -/
def Resource.code : Resource → Nat
  | .kiln k => kilnNumber k
  | .planer => 13
  | .library => 14
  | .printer => 15

/-- CLAIM, RELEASE, SEIZE: the resource code (section 2.2). -/
def readResource (b : List Byte) : Except Nat Resource := do
  let n ← readOne 1 1 15 b
  return resourceOf n

/-- A kiln command's kiln number in field 1 (R5). -/
def readKiln : Reader KilnNo := fun c =>
  match readNat 1 1 12 c with
  | .error i => .error i
  | .ok (n, c') => .ok (kilnOfNumber n, c')

/-- PUT SPECIES (R37). -/
def readSpecies (b : List Byte) : Except Nat Species := do
  let (code, c) ← readNat 1 1 32 (fieldsOf b)
  let (label, c) ← readText 1 8 c
  let (factor, c) ← readNat 2 512 2048 c
  let (offset, c) ← readInt 1 (-100) 100 c
  let (coefficient, _) ← readNat 1 0 40 c
  return { code, label, factor, offset, coefficient }

/-- Steps of a MOISTURE schedule; no threshold exceeds the one before it, `prev` where there is one (R42, R43). -/
def readMoistureSteps : (n : Nat) → (prev : Nat) → Reader (List MoistureStep)
  | 0, _ => fun c => .ok ([], c)
  | n + 1, prev => fun c => do
    let ((dry, depression), c) ← readPair true c
    let (threshold, c) ← readNat 2 0 prev c
    let (minOn, c) ← readNat 2 0 9999 c
    let (maxOn, c) ← readNat 2 0 9999 c
    let (rest, c) ← readMoistureSteps n threshold c
    return ({ dry, depression, threshold, minOn, maxOn } :: rest, c)

/-- One step of a TIME schedule (R42). -/
def readTimeStep : Reader TimeStep := fun c => do
  let ((dry, depression), c) ← readPair true c
  let (duration, c) ← readNat 2 1 9999 c
  return ({ dry, depression, duration }, c)

/-- Header fields 5 to 9: carried and not checked where equalizing is disabled (R41). -/
def readEqualize : Reader (Option Equalize) := fun c => do
  let (enabled, c) ← readFlag c
  let ((dry, depression), c) ← readPair enabled c
  let (band, c) ← readNatIf 1 (fun n => !enabled || decide (n ≤ 100)) c
  let (maxOn, c) ← readNatIf 2 (fun n => !enabled || (decide (1 ≤ n) && decide (n ≤ 9999))) c
  return (if enabled then some { dry, depression, band, maxOn } else none, c)

/-- Header fields 10 to 13: carried and not checked where conditioning is disabled (R41). -/
def readConditioning : Reader (Option Conditioning) := fun c => do
  let (enabled, c) ← readFlag c
  let ((dry, depression), c) ← readPair enabled c
  let (minutes, c) ← readNatIf 2 (fun n => !enabled || (decide (1 ≤ n) && decide (n ≤ 9999))) c
  return (if enabled then some { dry, depression, minutes } else none, c)

/-- The step list of the kind carried in field 2 (R42); the first threshold is bounded by its range alone. -/
def readSteps (kind count : Nat) : Reader Steps := fun c =>
  if kind = 1 then do
    let (l, c) ← readMoistureSteps count 2000 c
    return (.moisture l, c)
  else do
    let (l, c) ← readMany readTimeStep count c
    return (.time l, c)

/-- PUT SCHEDULE (R41 to R43). -/
def readSchedule (b : List Byte) : Except Nat Schedule := do
  let (number, c) ← readNat 1 1 16 (fieldsOf b)
  let (kind, c) ← readNat 1 1 2 c
  let (finalTarget, c) ← readNat 2 40 300 c
  let (ramp, c) ← readNat 1 0 200 c
  let (equalize, c) ← readEqualize c
  let (conditioning, c) ← readConditioning c
  let (coolEnd, c) ← readNat 2 0 800 c
  let (coolMax, c) ← readNat 2 1 9999 c
  let (count, c) ← readNat 1 1 24 c
  let (steps, _) ← readSteps kind count c
  return { number, finalTarget, ramp, equalize, conditioning, coolEnd, coolMax, steps }

/-- PUT GRADE TEXT (R49). -/
def readGradeText (b : List Byte) : Except Nat (Nat × Text) := do
  let (grade, c) ← readNat 1 1 8 (fieldsOf b)
  let (text, _) ← readText 0 6 c
  return (grade, text)

/-- `n` length bands, each upper bound above `prev` (R50). -/
def readBands : (n : Nat) → (prev : Nat) → Reader (List Band)
  | 0, _ => fun c => .ok ([], c)
  | n + 1, prev => fun c => do
    let (bound, c) ← readNatIf 2 (fun v => decide (500 ≤ v) && decide (v ≤ 7500) && decide (prev < v)) c
    let (text, c) ← readText 1 4 c
    let (rest, c) ← readBands n bound c
    return ({ bound, text } :: rest, c)

/-- PUT LENGTH BANDS (R50): no bands for count 0, eight for count 8. -/
def readLengthBands (b : List Byte) : Except Nat (List Band) := do
  let (count, c) ← readNatOr 1 0 0 8 (fieldsOf b)
  let (l, _) ← readBands count 0 c
  return l

/-- DEFINE CHARGE (R57): species, thickness, volume. -/
def readDefineCharge (b : List Byte) : Except Nat (Nat × Nat × Nat) := do
  let (species, c) ← readNat 1 1 32 (fieldsOf b)
  let (thickness, c) ← readNat 1 10 150 c
  let (volume, _) ← readNat 4 1 2000000000 c
  return (species, thickness, volume)

/-- One sample of SET SAMPLES: green weight and green MC (R58). -/
def readGreen : Reader (Nat × Nat) := fun c => do
  let (weight, c) ← readNat 2 100 50000 c
  let (mc, c) ← readNat 2 50 2000 c
  return ((weight, mc), c)

/-- SET SAMPLES (R58): the charge id and the samples. -/
def readSetSamples (b : List Byte) : Except Nat (Nat × List (Nat × Nat)) := do
  let (id, c) ← readNat 2 1 65535 (fieldsOf b)
  let (n, c) ← readNat 1 2 8 c
  let (l, _) ← readMany readGreen n c
  return (id, l)

/-- SAMPLE WEIGHTS (R102): the charge id and the weights. -/
def readSampleWeights (b : List Byte) : Except Nat (Nat × List Nat) := do
  let (id, c) ← readNat 2 1 65535 (fieldsOf b)
  let (n, c) ← readNat 1 1 8 c
  let (l, _) ← readMany (readNat 2 0 50000) n c
  return (id, l)

/-- LOAD (R59): kiln, charge id, schedule number. -/
def readLoad (b : List Byte) : Except Nat (KilnNo × Nat × Nat) := do
  let (k, c) ← readKiln (fieldsOf b)
  let (id, c) ← readNat 2 1 65535 c
  let (n, _) ← readNat 1 1 16 c
  return (k, id, n)

/-- UNLOAD (R61): kiln and charge id. -/
def readUnload (b : List Byte) : Except Nat (KilnNo × Nat) := do
  let (k, c) ← readKiln (fieldsOf b)
  let (id, _) ← readNat 2 1 65535 c
  return (k, id)

/-- A kiln command's one field (section 5.9). -/
def readKilnOnly (b : List Byte) : Except Nat KilnNo := do
  let (k, _) ← readKiln (fieldsOf b)
  return k

/-- Whether a temperature of a kiln report is usable (R78). -/
def inReportRange (v : Int) : Bool := decide (-400 ≤ v) && decide (v ≤ 1500)

/-- KILN REPORT (R78): the kiln and the report; cores out of range are dropped. -/
def readKilnReport (b : List Byte) : Except Nat (KilnNo × KilnReport) := do
  let (k, c) ← readKiln (fieldsOf b)
  let (dry, c) ← readInt 2 (-32768) 32767 c
  let (wet, c) ← readInt 2 (-32768) 32767 c
  let (n, c) ← readNat 1 0 4 c
  let (cores, _) ← readMany (readInt 2 (-32768) 32767) n c
  return (k, { dry := ⟨dry, inReportRange dry⟩, wet := ⟨wet, inReportRange wet⟩, cores := cores.filter inReportRange })

/-- TRACE READ (R190): first sequence and count. -/
def readTraceRead (b : List Byte) : Except Nat (Nat × Nat) := do
  let (s, c) ← readNat 4 1 max32 (fieldsOf b)
  let (n, _) ← readNat 1 1 8 c
  return (s, n)

/-- SET CLOCK (R193). -/
def readSetClock (b : List Byte) : Except Nat DateTime := do
  let (year, c) ← readNat 2 2000 2199 (fieldsOf b)
  let (month, c) ← readNat 1 1 12 c
  let (day, c) ← readNat 1 1 (monthDays year month) c
  let (hour, c) ← readNat 1 0 23 c
  let (minute, _) ← readNat 1 0 59 c
  return { year, month, day, hour, minute }

/-- What OPEN RUN carries (R121): 255 in a band and 0 in the policy stand for the default. -/
structure OpenRunFields where
  charge : Nat
  wetBand : Nat
  dryBand : Nat
  policy : Nat
deriving DecidableEq, Repr

/-- OPEN RUN (R121). -/
def readOpenRun (b : List Byte) : Except Nat OpenRunFields := do
  let (charge, c) ← readNat 2 1 65535 (fieldsOf b)
  let (wetBand, c) ← readNatOr 1 0 100 255 c
  let (dryBand, c) ← readNatOr 1 0 150 255 c
  let (policy, _) ← readNat 1 0 2 c
  return { charge, wetBand, dryBand, policy }

/-- What BOARD GRADE carries (R133). -/
structure GradeReport where
  seq : Nat
  grade : Nat
  width : Nat
  length : Nat
deriving DecidableEq, Repr

/-- BOARD GRADE (R133). -/
def readGradeReport (b : List Byte) : Except Nat GradeReport := do
  let (seq, c) ← readNat 2 1 65535 (fieldsOf b)
  let (grade, c) ← readNat 1 0 8 c
  let (width, c) ← readNat 2 50 400 c
  let (length, _) ← readNat 2 500 65535 c
  return { seq, grade, width, length }

/-- The key fields of a sort entry: grade, width, band (R137). -/
def readSortKey : Reader (Nat × Nat × Nat) := fun c => do
  let (grade, c) ← readNat 1 1 8 c
  let (width, c) ← readNat 2 50 400 c
  let (band, c) ← readNat 1 1 8 c
  return ((grade, width, band), c)

/-- PUT SORT ENTRY (R137). -/
def readSortEntry (b : List Byte) : Except Nat SortEntry := do
  let ((grade, width, band), c) ← readSortKey (fieldsOf b)
  let (bin, _) ← readNat 1 1 20 c
  return { grade, width, band, bin }

/-- REMOVE SORT ENTRY (R138). -/
def readSortKeyOnly (b : List Byte) : Except Nat (Nat × Nat × Nat) := do
  let (key, _) ← readSortKey (fieldsOf b)
  return key

/-- The form of a RUN STATUS (R139). -/
inductive RunForm
  | summary
  | queueA (first : Nat)
  | queueB (first : Nat)
  | sortMap
deriving DecidableEq, Repr

/-- RUN STATUS (R139): forms 1 and 2 carry the first position wanted. -/
def readRunForm (b : List Byte) : Except Nat RunForm := do
  let (form, c) ← readNat 1 0 3 (fieldsOf b)
  if form = 0 then return .summary
  else if form = 3 then return .sortMap
  else do
    let (first, _) ← readNat 1 1 48 c
    return (if form = 1 then .queueA first else .queueB first)

/-- SET BIN TARGET (R153): the bin and the target; the range of field 3 is chosen by field 2. -/
def readBinTarget (b : List Byte) : Except Nat (Nat × BinTarget) := do
  let (bin, c) ← readNat 1 1 20 (fieldsOf b)
  let (kind, c) ← readNat 1 1 2 c
  let (value, _) ← readNat 4 1 (if kind = 1 then 2000 else 10000000) c
  return (bin, if kind = 1 then .pieces value else .volume value)

/-- The form of a PACK QUERY (R167). -/
inductive PackForm
  | single (id : Nat)
  | listing
  | bins
deriving DecidableEq, Repr

/-- PACK QUERY (R167): form 0 carries a pack id. -/
def readPackForm (b : List Byte) : Except Nat PackForm := do
  let (form, c) ← readNat 1 0 2 (fieldsOf b)
  if form = 1 then return .listing
  else if form = 2 then return .bins
  else do
    let (id, _) ← readNat 2 1 65535 c
    return .single id

/-- A value of PUT PARAMETER (R195): a number for parameters 1 to 17, a text for parameter 18. -/
inductive ParamValue
  | number (n : Nat)
  | header (t : Text)
deriving DecidableEq, Repr

/-- The ranges of parameters 1 to 17 (R194). -/
def paramRanges : List (Nat × Nat) :=
  [(10, 100), (5, 240), (1, 60), (2, 60), (500, 800), (1, 240), (5, 240), (0, 100), (0, 150), (1, 2), (10, 1000), (10, 1000),
    (4, 64), (100, 10000), (1, 15), (1, 15), (1, 15)]

/-- The range of parameter `n` of 1 to 17. -/
def paramRange (n : Nat) : Nat × Nat := paramRanges.getD (n - 1) (0, 0)

/-- PUT PARAMETER (R195): parameter number and value. -/
def readParameter (b : List Byte) : Except Nat (Nat × ParamValue) := do
  let (n, c) ← readNat 1 1 18 (fieldsOf b)
  if n = 18 then do
    let (t, _) ← readText 0 16 c
    return (n, .header t)
  else do
    let (v, _) ← readNat 2 (paramRange n).1 (paramRange n).2 c
    return (n, .number v)

/-! ## Answer records in bytes -/

/-- The bytes of an item of an answer body. -/
def Field.bytes : Field → List Byte
  | .num w v => beBytes w v
  | .int w v => beBytes w (unsignedOf w v)
  | .flag b => [if b then 1 else 0]
  | .sym x => [Config.symByte x]
  | .text t => BitVec.ofNat 8 t.length :: t
  | .pair dry depression => beBytes 3 (dry * 4096 + depression)
  | .byte b => [b]
  | .absent w => (List.range w).map (Config.absentByte w)
  | .chargeFlags f => [Config.chargeFlagsByte f]
  | .binState bin st => [Config.binStateByte bin st]
  | .traceFlags f => [Config.traceFlagsByte f]

/-- The code of a port as an owner (R21, R26). -/
def portCode : Port → Nat
  | .K => 1
  | .P => 2
  | .Y => 3

/-- The code of an owner: 0 FREE, 1 K, 2 P, 3 Y (R26). -/
def ownerCode : Option Port → Nat
  | none => 0
  | some p => portCode p

/-- Reason codes (R10). -/
def Reason.code : Reason → Nat
  | .badKind => 1
  | .wrongPort => 2
  | .notOwner => 3
  | .heldBy _ _ => 4
  | .badField _ => 5
  | .noSuch | .noSuchSequence _ => 6
  | .badState => 7
  | .tableFull => 8
  | .inUse => 9
  | .mismatch => 10
  | .notMetered => 11
  | .unknownBoard => 12

/-- The detail of a reason (R10, R21). -/
def Reason.detail : Reason → List Byte
  | .heldBy owner seized => [BitVec.ofNat 8 (portCode owner), if seized then 1 else 0]
  | .badField i => beBytes 1 i
  | .noSuchSequence oldest => beBytes 4 oldest
  | _ => []

/-- The bytes of an answer body: at most 248, and a longer body is cut there (R9, R168, log 10). -/
def bodyOf (body : List Field) : List Byte := (body.flatMap Field.bytes).take Config.bodyBytes

/-- The bytes of an answer record (R21). -/
def Answer.bytes (a : Answer) : List Byte :=
  a.kind :: beBytes 2 a.tag.toNat ++
    match a.verdict with
    | .done body => 0x00 :: bodyOf body
    | .refused r => 0x01 :: BitVec.ofNat 8 r.code :: r.detail

/-! ## Items that several answers share -/

/-- An optional item: its field, or an absent one of the same width (section 4.5, log 6). -/
def optField {α : Type} (w : Nat) (f : α → Field) : Option α → Field
  | some a => f a
  | none => .absent w

def optNum (w : Nat) (x : Option Nat) : Field := optField w (.num w) x

/-- A list of charge ids: its count and its items (R9). -/
def idList (ids : List Nat) : List Field := .num 1 ids.length :: ids.map (.num 2)

/-- The code of a policy (R194). -/
def Policy.code : Policy → Nat
  | .redry => 1
  | .accept => 2

/-- The policy of a code (R194). -/
def policyOf (n : Nat) : Policy := if n = 2 then .accept else .redry

/-- The kind code of a target (R153). -/
def BinTarget.kindCode : BinTarget → Nat
  | .pieces _ => 1
  | .volume _ => 2

def BinTarget.value : BinTarget → Nat
  | .pieces v => v
  | .volume v => v

end Sys2Proof.Machine
end

