-- ==== Sys2Proof/Machine/Flags.lean ====
section
/-! DEFINITION. Alert causes, the attention line, and the status byte and status record of a port (R3, R11, R13, R14, R21). -/

namespace Sys2Proof.Machine

/-- The number of a cause (R14). -/
def Cause.number : Cause → Nat
  | .answerReady => 1
  | .claimLost => 2
  | .noteChanged => 3
  | .kilnPhase => 4
  | .kilnDeviation => 5
  | .sensorStale => 6
  | .samplesShort => 7
  | .stepOvertime => 8
  | .htCertified => 9
  | .meterState => 10
  | .trackOverrun => 11
  | .chargeWet => 12
  | .packClosed => 13
  | .registerFull => 14
  | .redryFull => 15
  | .printerFault => 16
  | .traceMark => 17
  | .strayBoard => 18
  | .restarted => 19

/-- A cause in a cause set: cause n in bit n - 1 (R21). -/
def Cause.bit (c : Cause) : BitVec 24 := BitVec.ofNat 24 (2 ^ (c.number - 1))

/-- The bits of the nineteen causes; bits 19 to 23 of a cause set are ignored and sent as 0 (R16, R17, R21). -/
def causeBits : BitVec 24 := 0x07FFFF

/-- A cause raised at a port joins its pending set if it is enabled; otherwise the raise is dropped (R13). -/
def PortUnit.raise (u : PortUnit) (c : Cause) : PortUnit := { u with pending := u.pending ||| (c.bit &&& u.enabled) }

/-- The attention line is driven while the pending set is not empty (R13). -/
def PortUnit.attention (u : PortUnit) : Bool := u.pending != 0

def State.raiseAt (s : State) (p : Port) (c : Cause) : State := s.setPort p ((s.port p).raise c)

/-- A raise whose rule names no port is raised at all three (R13). -/
def State.raiseAll (s : State) (c : Cause) : State := s.withPorts (s.ports.map fun _ u => u.raise c)

/-- The raise at the two ports other than `p` (R12, R18). -/
def State.raiseOthers (s : State) (p : Port) (c : Cause) : State :=
  s.withPorts (s.ports.map fun q u => if q = p then u else u.raise c)

/-- Raise a cause at all three ports where a condition holds. -/
def State.raiseIf (s : State) (b : Bool) (c : Cause) : State := if b then s.raiseAll c else s

/-- Slot state codes (R21). -/
def Slot.code : Slot → Nat
  | .empty => 0
  | .posted _ => 1
  | .taken _ => 2
  | .doneWaiting _ => 3

/-- Last result codes (R21). -/
def LastResult.code : LastResult → Nat
  | .blank => 0
  | .ok => 1
  | .slotBusy => 2
  | .tooLate => 3
  | .none => 4
  | .badTransfer => 5
  | .badLength => 6
  | .frameShort => 7

/-- A bit at a place. -/
def bitAt (b : Bool) (place : Nat) : Nat := if b then 2 ^ place else 0

def StartKind.isWarm : StartKind → Bool
  | .warm => true
  | .cold => false

/-- The port status byte (R3, R21). -/
def State.statusByte (s : State) (p : Port) : Byte :=
  BitVec.ofNat 8 ((s.port p).slot.code * 64 + bitAt (s.port p).buffer.isSome 5 + bitAt (s.port p).attention 4
    + bitAt s.retention.startKind.isWarm 3 + (s.port p).last.code)

/-- Whether a staged answer is present (R1). -/
def Slot.hasStaged : Slot → Bool
  | .doneWaiting _ => true
  | _ => false

/-- The fifteen bytes of the status record (R11, R21). -/
def State.statusRecord (s : State) (p : Port) : List Byte :=
  [BitVec.ofNat 8 (s.port p).slot.code,
    BitVec.ofNat 8 (bitAt (s.port p).buffer.isSome 0 + bitAt (s.port p).slot.hasStaged 1
      + bitAt s.retention.startKind.isWarm 2 + bitAt s.clock.isSet 3)]
  ++ beBytes 3 (s.port p).pending.toNat
  ++ beBytes 3 (s.port p).enabled.toNat
  ++ [BitVec.ofNat 8 (s.ports.p.notes.toNat * 16 + s.ports.k.notes.toNat), BitVec.ofNat 8 s.ports.y.notes.toNat,
    BitVec.ofNat 8 (s.port p).errors]
  ++ beBytes 4 s.clock.minutes

end Sys2Proof.Machine
end

