-- ==== Sys2Proof/Machine/Claims.lean ====
section
/-! DEFINITION. The claim table (chapter 2): CLAIM, RELEASE, SEIZE. -/

namespace Sys2Proof.Machine

/-- CLAIM at its take (R24). -/
def claimAct : Act := fun p r s => do
  let res ← fields (readResource r.body)
  match (s.claim res).owner with
  | none =>
    return (s.setClaim res { s.claim res with owner := some p },
      [.num 1 res.code, .flag false, .flag (s.claim res).seized])
  | some q =>
    if q = p then return (s, [.num 1 res.code, .flag true, .flag (s.claim res).seized])
    else .error (.heldBy q (s.claim res).seized)

def execClaim (p : Port) (s : State) : Result := takeRequest 0x01 claimAct p s

/-- RELEASE at its take (R25). -/
def releaseAct : Act := fun p r s => do
  let res ← fields (readResource r.body)
  let _ ← require ((s.claim res).owner == some p) .notOwner
  return (s.setClaim res .free, [.num 1 res.code, .flag (s.claim res).seized])

def execRelease (p : Port) (s : State) : Result := takeRequest 0x02 releaseAct p s

/-- CLAIM_LOST at a former owner K or P (R26, R27). -/
def State.claimLost (s : State) : Option Port → State
  | some .K => s.raiseAt .K .claimLost
  | some .P => s.raiseAt .P .claimLost
  | _ => s

/-- SEIZE at its take (R26). -/
def seizeAct : Act := fun _ r s => do
  let res ← fields (readResource r.body)
  return ((s.setClaim res { owner := some .Y, seized := true }).claimLost (s.claim res).owner,
    [.num 1 res.code, .num 1 (ownerCode (s.claim res).owner), .flag (s.claim res).seized])

def execSeize (p : Port) (s : State) : Result := takeRequest 0x03 seizeAct p s

end Sys2Proof.Machine
end

