-- ==== Sys2Proof/Machine/Clock.lean ====
section
/-! DEFINITION. The mill clock (R192, R193). -/

namespace Sys2Proof.Machine

/-- A minute expiry of the clock: the count rises while the set flag is 1 and stays at its largest value (R192). -/
def MillClock.minute (c : MillClock) : MillClock :=
  if c.isSet then { c with minutes := satInc max32 c.minutes } else c

/-- The clock runs from the backup domain, so its minutes count in every power phase (R192, R199, log 18). -/
def execMillClockMinute (s : State) : Result := .next (s.withClock s.clock.minute)

/-- SET CLOCK at its take (R193). -/
def setClockAct : Act := fun _ r s => do
  let d ← fields (readSetClock r.body)
  return (s.withClock { minutes := minutesOf d, isSet := true },
    [.num 4 s.clock.minutes, .flag s.clock.isSet, .num 4 (minutesOf d)])

def execSetClock (p : Port) (s : State) : Result := takeRequest 0x82 setClockAct p s

end Sys2Proof.Machine
end

