-- ==== Sys2Proof/Machine/Library.lean ====
section
/-! DEFINITION. The library: species, schedules, grade texts, length bands (chapter 3) and the parameter set (chapter 12). -/

namespace Sys2Proof.Machine

/-! ## Species (R37 to R39) -/

/-- PUT SPECIES at its take (R37). -/
def putSpeciesAct : Act := fun p r s => do
  let _ ← claimCheck .library p s
  let x ← fields (readSpecies r.body)
  return (s.withLibrary { s.library with species := keyPut Species.code x s.library.species },
    [.num 1 x.code, .flag (s.species x.code).isSome])

def execPutSpecies (p : Port) (s : State) : Result := takeRequest 0x10 putSpeciesAct p s

/-- The number of present charges that name a species (R38, R39). -/
def State.speciesUsers (s : State) (code : Nat) : Nat := (s.charges.entries.filter fun c => c.species == code).length

/-- DELETE SPECIES at its take (R38). -/
def deleteSpeciesAct : Act := fun p r s => do
  let _ ← claimCheck .library p s
  let code ← fields (readOne 1 1 32 r.body)
  let _ ← orRefuse (s.species code) .noSuch
  let _ ← require (s.speciesUsers code == 0) .inUse
  return (s.withLibrary { s.library with species := keyErase Species.code code s.library.species }, [.num 1 code])

def execDeleteSpecies (p : Port) (s : State) : Result := takeRequest 0x11 deleteSpeciesAct p s

/-- SPECIES QUERY at its take (R39). -/
def speciesQueryAct : Act := fun _ r s => do
  let code ← fields (readOne 1 1 32 r.body)
  let x ← orRefuse (s.species code) .noSuch
  return (s, [.num 1 code, .text x.label, .num 2 x.factor, .int 1 x.offset, .num 1 x.coefficient,
    .num 1 (s.speciesUsers code)])

def execSpeciesQuery (p : Port) (s : State) : Result := takeRequest 0x12 speciesQueryAct p s

/-! ## Schedules (R41 to R48) -/

/-- The number of steps of a schedule. -/
def Steps.count : Steps → Nat
  | .moisture l => l.length
  | .time l => l.length

/-- The kind code of a schedule (R41). -/
def Steps.kindCode : Steps → Nat
  | .moisture _ => 1
  | .time _ => 2

def MoistureStep.fields (x : MoistureStep) : List Field :=
  [.pair x.dry x.depression, .num 2 x.threshold, .num 2 x.minOn, .num 2 x.maxOn]

def TimeStep.fields (x : TimeStep) : List Field := [.pair x.dry x.depression, .num 2 x.duration]

/-- The step fields in step order (R42). -/
def Steps.fields : Steps → List Field
  | .moisture l => l.flatMap MoistureStep.fields
  | .time l => l.flatMap TimeStep.fields

/-- Header fields 5 to 9; a disabled phase's are reported as 0 (R41). -/
def equalizeFields : Option Equalize → List Field
  | some e => [.flag true, .pair e.dry e.depression, .num 1 e.band, .num 2 e.maxOn]
  | none => [.flag false, .pair 0 0, .num 1 0, .num 2 0]

/-- Header fields 10 to 13. -/
def conditioningFields : Option Conditioning → List Field
  | some e => [.flag true, .pair e.dry e.depression, .num 2 e.minutes]
  | none => [.flag false, .pair 0 0, .num 2 0]

/-- The header fields 1 to 16 and the steps, in the order of R41 and R42. -/
def Schedule.fields (x : Schedule) : List Field :=
  [.num 1 x.number, .num 1 x.steps.kindCode, .num 2 x.finalTarget, .num 1 x.ramp] ++ equalizeFields x.equalize
    ++ conditioningFields x.conditioning ++ [.num 2 x.coolEnd, .num 2 x.coolMax, .num 1 x.steps.count] ++ x.steps.fields

/-- PUT SCHEDULE at its take (R43, R44). -/
def putScheduleAct : Act := fun p r s => do
  let _ ← claimCheck .library p s
  let x ← fields (readSchedule r.body)
  let _ ← require (s.inUse x.number == 0) .inUse
  return (s.withLibrary { s.library with schedules := keyPut Schedule.number x s.library.schedules },
    [.num 1 x.number, .flag (s.schedule x.number).isSome, .num 1 x.steps.count])

def execPutSchedule (p : Port) (s : State) : Result := takeRequest 0x13 putScheduleAct p s

/-- DELETE SCHEDULE at its take (R45). -/
def deleteScheduleAct : Act := fun p r s => do
  let _ ← claimCheck .library p s
  let n ← fields (readOne 1 1 16 r.body)
  let _ ← orRefuse (s.schedule n) .noSuch
  let _ ← require (s.inUse n == 0) .inUse
  return (s.withLibrary { s.library with schedules := keyErase Schedule.number n s.library.schedules }, [.num 1 n])

def execDeleteSchedule (p : Port) (s : State) : Result := takeRequest 0x14 deleteScheduleAct p s

/-- SCHEDULE QUERY at its take (R48). -/
def scheduleQueryAct : Act := fun _ r s => do
  let n ← fields (readOne 1 1 16 r.body)
  let x ← orRefuse (s.schedule n) .noSuch
  return (s, x.fields ++ [.num 1 (s.inUse n)])

def execScheduleQuery (p : Port) (s : State) : Result := takeRequest 0x15 scheduleQueryAct p s

/-! ## Grade texts and length bands (R49 to R51) -/

def State.gradeText (s : State) (grade : Nat) : Text := s.library.gradeTexts.get (slot1 7 grade)

/-- PUT GRADE TEXT at its take (R49): an empty text reads the present one. -/
def putGradeTextAct : Act := fun p r s => do
  let _ ← claimCheck .library p s
  let (grade, t) ← fields (readGradeText r.body)
  return (if t.isEmpty then s
      else s.withLibrary { s.library with gradeTexts := s.library.gradeTexts.set (slot1 7 grade) t },
    [.num 1 grade, .text (s.gradeText grade)])

def execPutGradeText (p : Port) (s : State) : Result := takeRequest 0x16 putGradeTextAct p s

/-- The eight bounds and texts of a table (R50). DEDUCED: R50 gives the body of the answer no order among them; each bound is
sent with its own text behind it, band by band, as the request carries them (log 38), and no count goes before (log 25). -/
def bandFields (t : Table Band 8) : List Field := t.cells.flatMap fun b => [.num 2 b.bound, .text b.text]

/-- A table of the eight bands read, or the present table for count 0 (R50). -/
def bandsFrom (old : Table Band 8) (l : List Band) : Table Band 8 := if h : l.length = 8 then ⟨l, h⟩ else old

/-- PUT LENGTH BANDS at its take (R50): all eight together, or none. -/
def putLengthBandsAct : Act := fun p r s => do
  let _ ← claimCheck .library p s
  let l ← fields (readLengthBands r.body)
  return (s.withLibrary { s.library with bands := bandsFrom s.library.bands l }, bandFields s.library.bands)

def execPutLengthBands (p : Port) (s : State) : Result := takeRequest 0x17 putLengthBandsAct p s

def State.bandText (s : State) (band : Nat) : Text := (s.library.bands.get (slot1 7 band)).text

/-- The band of a board length: the smallest number whose upper bound is at least the length, 8 above the last (R51). -/
def bandOf (t : Table Band 8) (length : Nat) : Nat :=
  match t.cells.findIdx? fun b => decide (length ≤ b.bound) with
  | some i => i + 1
  | none => 8

/-! ## Parameters (R194 to R196) -/

/-- PUT PARAMETER at its take (R195). -/
def putParameterAct : Act := fun p r s => do
  let _ ← claimCheck .library p s
  let (n, v) ← fields (readParameter r.body)
  match v with
  | .number x =>
    return (s.withLibrary { s.library with
        params := { s.library.params with values := s.library.params.values.set (slot1 16 n) x } },
      [.num 1 n, .num 2 (s.param n), .num 2 x])
  | .header t =>
    return (s.withLibrary { s.library with params := { s.library.params with header := t } },
      [.num 1 n, .text s.library.params.header, .text t])

def execPutParameter (p : Port) (s : State) : Result := takeRequest 0x90 putParameterAct p s

/-- PARAMETER QUERY at its take (R196). -/
def parameterQueryAct : Act := fun _ r s => do
  let n ← fields (readOne 1 0 18 r.body)
  if n = 0 then return (s, s.library.params.values.cells.map (.num 2) ++ [.text s.library.params.header])
  else if n = 18 then return (s, [.num 1 n, .text s.library.params.header])
  else return (s, [.num 1 n, .num 2 (s.param n)])

def execParameterQuery (p : Port) (s : State) : Result := takeRequest 0x91 parameterQueryAct p s

end Sys2Proof.Machine
end

