-- ==== Sys2Proof/Machine/Moisture.lean ====
section
/-! DEFINITION. Moisture arithmetic (chapter 6): every computation on integers, with its stated rounding and limits. -/

namespace Sys2Proof.Machine

/-! ## Samples (R101 to R105) -/

/-- Oven-dry weight (R101). -/
def ovenDryWeight (greenWeight greenMC : Nat) : Nat := roundHalfUp (greenWeight * 1000) (1000 + greenMC)

/-- Current MC of a sample not lighter than its oven-dry weight, before its limit (R103). -/
def currentMC (ovenDry weight : Nat) : Nat := roundHalfUp ((weight - ovenDry) * 1000) ovenDry

/-- Apply a weight to a sample: 0 leaves it, any other sets current weight, current MC and status (R103). -/
def Sample.weigh (x : Sample) (weight : Nat) : Sample :=
  if weight = 0 then x
  else if weight < x.ovenDry then { x with status := .suspect weight 0 }
  else { x with status := .valid weight (min 2000 (currentMC x.ovenDry weight)) }

/-- Apply weight k to sample k; samples beyond the weights stay as they were (R102). -/
def weighAll : List Sample → List Nat → List Sample
  | x :: xs, w :: ws => x.weigh w :: weighAll xs ws
  | xs, [] => xs
  | [], _ => []

/-- The current MC of a VALID sample. -/
def Sample.validMC (x : Sample) : Option Nat :=
  match x.status with
  | .valid _ mc => some mc
  | _ => none

/-- The current MCs of the VALID samples (R104). -/
def validMCs (xs : List Sample) : List Nat := xs.filterMap Sample.validMC

/-- Put a number in its place in a falling list. -/
def insertFalling (a : Nat) : List Nat → List Nat
  | [] => [a]
  | b :: l => if b ≤ a then a :: b :: l else b :: insertFalling a l

/-- The numbers, largest first. -/
def sortFalling (l : List Nat) : List Nat := l.foldr insertFalling []

/-- Wettest MC: the largest current MC among the VALID samples (R104). -/
def wettestOf (xs : List Sample) : Option Nat := (sortFalling (validMCs xs)).head?

/-- How many VALID samples are averaged of `n`: n / 2 rounded up (R104). -/
def averagedOf (n : Nat) : Nat := (n + 1) / 2

/-- Controlling MC: the mean of the wetter half of at least two VALID samples, rounded half up (R104). -/
def controllingOf (xs : List Sample) : Option Nat :=
  let n := (validMCs xs).length
  if n < 2 then none
  else some (roundHalfUp ((sortFalling (validMCs xs)).take (averagedOf n)).sum (averagedOf n))

/-- Both figures recomputed from the whole sample list (R105). -/
def Charge.recompute (c : Charge) : Charge :=
  { c with controlling := controllingOf c.samples, wettest := wettestOf c.samples }

/-- SAMPLES_SHORT: the recomputation finds the controlling MC absent where it was present just before (R106). -/
def losesControlling (before after : Charge) : Bool := before.controlling.isSome && after.controlling.isNone

/-! ## The setpoint ramp (R108, R109) -/

/-- The setpoint moved toward the target by at most `move`. -/
def moveToward (s t move : Nat) : Nat := if s ≤ t then min t (s + move) else max t (s - move)

/-- The accumulator after its rise, less 60 for each tenth moved (R108). -/
def accumulated (a r : Nat) : Nat := (a + r) % 60

/-- One minute of the ramp: the dry setpoint `s` and the accumulator `a` after it (R108). -/
def rampMinute (s t a r : Nat) : Nat × Nat :=
  if s = t then (s, 0)
  else if r = 0 then (t, 0)
  else
    let s' := moveToward s t ((a + r) / 60)
    (s', if s' = t then 0 else accumulated a r)

/-- The wet setpoint: the dry setpoint less the depression in force, floored at 0 (R109). -/
def wetOf (dry depression : Nat) : Nat := dry - depression

/-! ## Meter readings (R110, R111) -/

/-- Raw reading, limited to 600, and the saturated flag (R110). -/
def conditionRaw (raw : Nat) : Nat × Bool := (min 600 raw, decide (600 < raw))

/-- Board temperature, limited to -20 to 80 (R110). -/
def conditionTemp (t : Int) : Int := max (-20) (min 80 t)

/-- Corrected MC from a conditioned raw reading and temperature (R111). -/
def correctedMC (sp : Species) (raw : Nat) (t : Int) : Nat :=
  let scaled : Int := roundHalfUp (raw * sp.factor) 1024
  let term : Int := roundHalfAway ((t - 20) * sp.coefficient) 10
  (max 0 (min 600 (scaled + sp.offset - term))).toNat

/-! ## Classification and volume (R112, R113) -/

/-- The class of a board that has a reading (R112). -/
def classOf (finalTarget wetBand dryBand reading : Nat) (saturated : Bool) : BoardClass :=
  if saturated || decide (finalTarget + wetBand < reading) then .wet
  else if reading < finalTarget - dryBand then .overdry
  else .ok

/-- Board volume in cm³ (R113). -/
def boardVolume (thickness width length : Nat) : Nat := roundHalfUp (thickness * width * length) 1000

/-! ## Charge wet feedback (R114, R115) -/

/-- The planer statistics after a board of class `cls` with a reading (R114). -/
def PlanerStats.classified (st : PlanerStats) (cls : BoardClass) (reading : Nat) : PlanerStats :=
  if st.metered < max16 then
    { st with
      metered := st.metered + 1
      wet := st.wet + (if cls = .wet then 1 else 0)
      overdry := st.overdry + (if cls = .overdry then 1 else 0)
      mcSum := st.mcSum + reading }
  else st

/-- The test of R115 against the wet-charge minimum and limit parameters. -/
def turnsWet (minimum limit : Nat) (c : Charge) : Bool :=
  decide (minimum ≤ c.stats.metered) && decide (c.stats.metered * limit < c.stats.wet * 1000) && !c.flags.chargeWet

end Sys2Proof.Machine
end

