-- ==== Sys2Proof/Machine/Trace.lean ====
section
/-! DEFINITION. The kiln trace log (chapter 11): writing, reading, the trace mark. -/

namespace Sys2Proof.Machine

/-! ## Writing (R187, R188, R191) -/

/-- The ring holds records written before a wrap, while the next sequence is 1 (R188). -/
def TraceLog.wrapped (g : TraceLog) : Bool := g.next == 1 && !g.ring.isEmpty

/-- The log as a write finds it: in the interval after a wrap the ring is emptied of every older record and a present trace
mark becomes absent (R188). -/
def TraceLog.ready (g : TraceLog) : TraceLog := if g.wrapped then { g with ring := [], mark := none } else g

/-- Whether the write of sequence `g.next` reaches a present trace mark (R191). -/
def TraceLog.reaches (g : TraceLog) : Bool :=
  match g.mark with
  | some m => decide (m ≤ g.next)
  | none => false

/-- The ring with a record placed as the newest, the oldest discarded where it already held 2048 (R188). -/
def placeNewest (ring : List TraceRecord) (x : TraceRecord) : List TraceRecord :=
  (if Config.ringRecords ≤ ring.length then ring.drop 1 else ring) ++ [x]

/-- One write to a log that is ready: the record, whose sequence is the next, is placed, the next sequence rises by one and
wraps to 1, and a mark that is reached becomes absent (R188, R191). -/
def TraceLog.place (g : TraceLog) (x : TraceRecord) : TraceLog :=
  { ring := placeNewest g.ring x, next := wrapNext max32 g.next, mark := if g.reaches then none else g.mark }

/-- The smallest of a list of core values. -/
def minCore : List Int → Option Int
  | [] => none
  | c :: cs => some (cs.foldl min c)

/-- The largest of a list of core values. -/
def maxCore : List Int → Option Int
  | [] => none
  | c :: cs => some (cs.foldl max c)

/-- The last report as trace records and triggers use it: absent while the stale flag is set (R187, R84, R89). -/
def Kiln.freshReport (kl : Kiln) : Option KilnReport := if kl.stale then none else kl.report

/-- The value of a valid channel. -/
def Actual.usable (a : Actual) : Option Int := if a.valid then some a.value else none

/-- The record that an event of kiln `k` about charge `id` writes, from the state the event has produced (R187). -/
def State.traceRecord (s : State) (k : KilnNo) (id : Nat) (kind : TraceKind) : TraceRecord :=
  { seq := s.trace.next
    time := s.clock.stamp
    kiln := k
    charge := id
    kind := kind
    state := ((s.charge id).map fun c => c.state.name).getD .empty
    step := (s.kiln k).step
    dry := (s.kiln k).dry
    wet := (s.kiln k).wet
    dryActual := (s.kiln k).freshReport.bind fun r => r.dry.usable
    wetActual := (s.kiln k).freshReport.bind fun r => r.wet.usable
    controlling := (s.charge id).bind Charge.controlling
    minCore := (s.kiln k).freshReport.bind fun r => minCore r.cores }

/-- Write one record; TRACE_MARK is raised at all three ports where the write reaches the mark (R188, R191). -/
def State.writeTrace (s : State) (k : KilnNo) (id : Nat) (kind : TraceKind) : State :=
  (s.withTrace (s.trace.ready.place (s.traceRecord k id kind))).raiseIf s.trace.ready.reaches .traceMark

/-! ## TRACE READ (R190) -/

/-- The oldest held sequence: the next sequence less the number held, or that of the oldest record after a wrap (R186, R188). -/
def TraceLog.oldest (g : TraceLog) : Nat :=
  if g.wrapped then (g.ring.head?.map TraceRecord.seq).getD g.next else g.next - g.ring.length

/-- The records from sequence `s` onward, at most `n`. -/
def TraceLog.from_ (g : TraceLog) (s n : Nat) : List TraceRecord := (g.ring.dropWhile fun x => decide (x.seq < s)).take n

/-- The 27 bytes of a record in an answer (R187); an absent item is sent as 0 with its presence bit 0. -/
def TraceRecord.fields (x : TraceRecord) : List Field :=
  [.num 4 x.seq, .num 4 (x.time.getD 0),
    .traceFlags ⟨x.time.isSome, x.dryActual.isSome, x.wetActual.isSome, x.controlling.isSome, x.minCore.isSome⟩,
    .num 1 (kilnNumber x.kiln), .num 2 x.charge, .sym (.trace x.kind), .sym (.state x.state), .num 1 x.step,
    .num 2 x.dry, .num 2 x.wet, .int 2 (x.dryActual.getD 0), .int 2 (x.wetActual.getD 0), .num 2 (x.controlling.getD 0),
    .int 2 (x.minCore.getD 0)]

/-- TRACE READ at its take. -/
def traceReadAct : Act := fun _ r s => do
  let (first, count) ← fields (readTraceRead r.body)
  let _ ← require (decide (s.trace.oldest ≤ first)) (.noSuchSequence s.trace.oldest)
  let l := s.trace.from_ first count
  return (s, [.num 4 s.trace.oldest, .num 4 s.trace.next, .num 1 l.length] ++ l.flatMap TraceRecord.fields)

def execTraceRead (p : Port) (s : State) : Result := takeRequest 0x80 traceReadAct p s

/-! ## SET TRACE MARK (R191) -/

/-- Whether a mark set to `n` fires at once: the record at `n` has already been written. -/
def TraceLog.fires (g : TraceLog) (n : Nat) : Bool := decide (1 ≤ n) && decide (n < g.next)

/-- The mark after SET TRACE MARK with field 1 equal to `n`. -/
def TraceLog.markAfter (g : TraceLog) (n : Nat) : Option Nat := if n = 0 ∨ n < g.next then none else some n

/-- SET TRACE MARK at its take. -/
def setTraceMarkAct : Act := fun _ r s => do
  let n ← fields (readOne 4 0 max32 r.body)
  return ((s.withTrace { s.trace with mark := s.trace.markAfter n }).raiseIf (s.trace.fires n) .traceMark,
    [optNum 4 s.trace.mark, optNum 4 (s.trace.markAfter n), .flag (s.trace.fires n), .num 4 s.trace.next])

def execSetTraceMark (p : Port) (s : State) : Result := takeRequest 0x81 setTraceMarkAct p s

end Sys2Proof.Machine
end

