-- ==== Sys2Proof/Machine/Charges.lean ====
section
/-! DEFINITION. The Charge Table, and LOAD and UNLOAD, which change a charge and its kiln in one take (chapter 4); SAMPLE
WEIGHTS (chapter 6). -/

namespace Sys2Proof.Machine

/-! ## Creating charges (R52, R53, R56) -/

def ChargeFlags.clear : ChargeFlags :=
  { htCertified := false, earlyStop := false, chargeWet := false, redry := false, eqTimeout := false }

def PlanerStats.zero : PlanerStats := { metered := 0, wet := 0, overdry := 0, mcSum := 0, inFlight := 0 }

/-- The record of a new charge as R53 begins it. -/
def newCharge (id species thickness volume : Nat) : Charge :=
  { id, species, thickness, volume, state := .staged, kiln := none, schedule := none, finalTarget := none, samples := [],
    controlling := none, wettest := none, flags := .clear, htAccrual := 0, stats := .zero, origin := none, refs := 0,
    firstTrace := none }

/-- The id the next charge created receives: the first after the last-assigned one that no present entry holds (R56). -/
def State.nextChargeId (s : State) : Nat := newId 65535 (s.charges.entries.map Charge.id) s.charges.lastId

/-- Whether the Charge Table has a free entry (R52). -/
def State.chargeEntryFree (s : State) : Bool := decide (s.charges.entries.length < Config.chargeEntries)

/-- A free entry becomes present with a charge under its id, which becomes the last-assigned one (R56). -/
def State.addCharge (s : State) (c : Charge) : State :=
  s.withCharges { entries := keyPut Charge.id c s.charges.entries, lastId := c.id }

/-- DEFINE CHARGE at its take (R57). -/
def defineChargeAct : Act := fun _ r s => do
  let (species, thickness, volume) ← fields (readDefineCharge r.body)
  let _ ← orRefuse (s.species species) .noSuch
  let _ ← require s.chargeEntryFree .tableFull
  return (s.addCharge (newCharge s.nextChargeId species thickness volume), [.num 2 s.nextChargeId])

def execDefineCharge (p : Port) (s : State) : Result := takeRequest 0x20 defineChargeAct p s

/-! ## Samples (R58, R101 to R106) -/

/-- The sample records of a SET SAMPLES, numbered by position (R54, R58). -/
def newSamples (l : List (Nat × Nat)) : List Sample :=
  l.mapIdx fun i g =>
    { number := i + 1, greenWeight := g.1, greenMC := g.2, ovenDry := ovenDryWeight g.1 g.2, status := .noReport }

/-- Give a charge a sample list and recompute its figures; SAMPLES_SHORT where the controlling MC is lost (R105, R106). -/
def State.setSamples (s : State) (c : Charge) (l : List Sample) : State :=
  let d := { c with samples := l }.recompute
  (s.modifyCharge c.id fun _ => d).raiseIf (losesControlling c d) .samplesShort

def isStagedOrLoaded : ChargeState → Bool
  | .staged | .loaded => true
  | _ => false

/-- SET SAMPLES at its take (R58). -/
def setSamplesAct : Act := fun _ r s => do
  let (id, l) ← fields (readSetSamples r.body)
  let c ← orRefuse (s.charge id) .noSuch
  let _ ← require (isStagedOrLoaded c.state) .badState
  return (s.setSamples c (newSamples l),
    [.num 2 id, .num 1 l.length] ++ (newSamples l).flatMap fun x => [.num 1 x.number, .num 2 x.ovenDry])

def execSetSamples (p : Port) (s : State) : Result := takeRequest 0x21 setSamplesAct p s

def SampleStatus.mark : SampleStatus → SampleMark
  | .noReport => .noReport
  | .valid _ _ => .valid
  | .suspect _ _ => .suspect

def SampleStatus.weight : SampleStatus → Option Nat
  | .noReport => none
  | .valid w _ | .suspect w _ => some w

def SampleStatus.mc : SampleStatus → Option Nat
  | .noReport => none
  | .valid _ m | .suspect _ m => some m

/-- The states in which SAMPLE WEIGHTS is refused BAD_STATE (R102). -/
def isReleasedOrLater : ChargeState → Bool
  | .released | .planing | .planed => true
  | _ => false

/-- SAMPLE WEIGHTS at its take (R102, R106). -/
def sampleWeightsAct : Act := fun _ r s => do
  let (id, ws) ← fields (readSampleWeights r.body)
  let c ← orRefuse (s.charge id) .noSuch
  let _ ← require (!isReleasedOrLater c.state) .badState
  let _ ← require (!c.samples.isEmpty) .badState
  let _ ← require (decide (ws.length ≤ c.samples.length)) .mismatch
  let l := weighAll c.samples ws
  return (s.setSamples c l,
    [.num 2 id, .num 1 (validMCs l).length, optNum 2 (controllingOf l), optNum 2 (wettestOf l)]
      ++ l.flatMap fun x => [.num 1 x.number, optNum 2 x.status.mc, .sym (.sample x.status.mark)])

def execSampleWeights (p : Port) (s : State) : Result := takeRequest 0x26 sampleWeightsAct p s

/-! ## LOAD and UNLOAD (R55, R59 to R62, R75) -/

/-- A kiln record with the values LOAD and UNLOAD give it, the last report, its age and the stale flag kept (R75). -/
def Kiln.cleared (kl : Kiln) (link : Option Nat) : Kiln :=
  { Kiln.cold with link := link, report := kl.report, age := kl.age, stale := kl.stale }

/-- LOAD needs samples under a MOISTURE schedule (R59, check 5). -/
def samplesSuit (steps : Steps) (l : List Sample) : Bool :=
  match steps with
  | .moisture _ => !l.isEmpty
  | .time _ => true

/-- The effect of a LOAD whose checks pass (R59, R75, R46): the tie, the copied target, the in-use count and the LOAD record. -/
def State.loadKiln (s : State) (k : KilnNo) (c : Charge) (x : Schedule) : State :=
  (((s.modifyCharge c.id fun c =>
      { c with state := .loaded, kiln := some k, schedule := some x.number, finalTarget := some x.finalTarget,
               firstTrace := some s.trace.next }).setKiln k ((s.kiln k).cleared (some c.id))).setInUse
    x.number (s.inUse x.number + 1)).writeTrace k c.id .load

/-- LOAD at its take (R59). -/
def loadAct : Act := fun p r s => do
  let (k, _) ← fields (readKiln (fieldsOf r.body))
  let _ ← claimCheck (.kiln k) p s
  let (k, id, n) ← fields (readLoad r.body)
  let _ ← require (s.kiln k).link.isNone .badState
  let c ← orRefuse (s.charge id) .noSuch
  let _ ← require (c.state == .staged) .badState
  let x ← orRefuse (s.schedule n) .noSuch
  let _ ← require (samplesSuit x.steps c.samples) .badState
  return (s.loadKiln k c x, [.num 1 (kilnNumber k), .num 2 c.id, .num 1 n, .num 2 x.finalTarget])

def execLoad (p : Port) (s : State) : Result := takeRequest 0x22 loadAct p s

/-- UNLOAD of a LOADED charge (R61): it becomes STAGED, without schedule number and final target, and the schedule's in-use
count falls by one. -/
def State.unloadLoaded (s : State) (k : KilnNo) (c : Charge) : State :=
  let t := (s.modifyCharge c.id fun c =>
    { c with state := .staged, kiln := none, schedule := none, finalTarget := none }).setKiln k ((s.kiln k).cleared none)
  (match c.schedule with
    | some n => t.setInUse n (s.inUse n - 1)
    | none => t).writeTrace k c.id .unload

/-- UNLOAD of a DRIED charge (R62): it becomes RELEASED; the in-use count was returned when it became DRIED. -/
def State.unloadDried (s : State) (k : KilnNo) (c : Charge) : State :=
  ((s.modifyCharge c.id fun c => { c with state := .released, kiln := none }).setKiln k
    ((s.kiln k).cleared none)).writeTrace k c.id .unload

/-- UNLOAD at its take (R61, R62). -/
def unloadAct : Act := fun p r s => do
  let (k, _) ← fields (readKiln (fieldsOf r.body))
  let _ ← claimCheck (.kiln k) p s
  let (k, id) ← fields (readUnload r.body)
  let linked ← orRefuse (s.kiln k).link .badState
  let _ ← require (linked == id) .mismatch
  let c ← orRefuse (s.charge id) .badState
  match c.state with
  | .loaded => return (s.unloadLoaded k c, [.num 1 (kilnNumber k), .num 2 id, .sym (.state .staged)])
  | .dried => return (s.unloadDried k c, [.num 1 (kilnNumber k), .num 2 id, .sym (.state .released)])
  | _ => .error .badState

def execUnload (p : Port) (s : State) : Result := takeRequest 0x23 unloadAct p s

/-! ## Retirement and queries (R67, R69, R70) -/

/-- RETIRE CHARGE at its take (R67). -/
def retireChargeAct : Act := fun _ r s => do
  let id ← fields (readOne 2 1 65535 r.body)
  let c ← orRefuse (s.charge id) .noSuch
  let _ ← require (c.state == .planed) .badState
  let _ ← require (c.refs == 0) .inUse
  return (s.withCharges { s.charges with entries := keyErase Charge.id id s.charges.entries },
    [.num 2 id, .num 2 c.stats.metered, .num 2 c.stats.wet, .num 2 c.stats.overdry, .num 4 c.stats.mcSum])

def execRetireCharge (p : Port) (s : State) : Result := takeRequest 0x24 retireChargeAct p s

/-- The held phase and the hold reason, absent outside HELD (R53, R69, R97). -/
def ChargeState.heldFields : ChargeState → List Field
  | .held ph reason => [.sym (.phase ph), .sym (.holdReason reason)]
  | _ => [.absent 1, .absent 1]

/-- The origin list with its "other" flag, or absent (R69). -/
def originFields : Option Origin → List Field
  | some o => idList o.ids ++ [.flag o.other]
  | none => [.absent 1]

def Sample.fields (x : Sample) : List Field :=
  [.num 1 x.number, .num 2 x.greenWeight, .num 2 x.greenMC, .num 2 x.ovenDry, optNum 2 x.status.weight, optNum 2 x.status.mc,
    .sym (.sample x.status.mark)]

/-- The body of a single CHARGE QUERY, in the order of R69. -/
def Charge.fields (c : Charge) : List Field :=
  [.num 2 c.id, .num 1 c.species, .num 1 c.thickness, .num 4 c.volume, .sym (.state c.state.name),
    optNum 1 (c.kiln.map kilnNumber), optNum 1 c.schedule, optNum 2 c.finalTarget] ++ c.state.heldFields
    ++ [optNum 2 c.controlling, optNum 2 c.wettest, .chargeFlags c.flags, .num 1 c.htAccrual,
      .num 2 c.stats.metered, .num 2 c.stats.wet, .num 2 c.stats.overdry, .num 4 c.stats.mcSum, .num 1 c.stats.inFlight]
    ++ originFields c.origin ++ [.num 1 c.refs, optNum 4 c.firstTrace, .num 1 c.samples.length]
    ++ c.samples.flatMap Sample.fields

/-- A charge in the list form of R70. -/
def Charge.listFields (c : Charge) : List Field :=
  [.num 2 c.id, .sym (.state c.state.name), .num 1 ((c.kiln.map kilnNumber).getD 0)]

/-- CHARGE QUERY at its take (R69, R70). -/
def chargeQueryAct : Act := fun _ r s => do
  let id ← fields (readOne 2 0 65535 r.body)
  if id = 0 then
    return (s, .num 1 s.charges.entries.length :: s.charges.entries.flatMap Charge.listFields)
  else do
    let c ← orRefuse (s.charge id) .noSuch
    return (s, c.fields)

def execChargeQuery (p : Port) (s : State) : Result := takeRequest 0x25 chargeQueryAct p s

end Sys2Proof.Machine
end

