-- ==== Sys2Proof/Machine/Kilns.lean ====
section
/-! DEFINITION. The kiln units (chapter 5): kiln reports, the seven parts of a minute, step and phase changes, the kiln
commands and KILN STATUS. -/

namespace Sys2Proof.Machine

/-! ## Steps, phases and targets (R82, R83, R86, R87) -/

/-- The target of step `n` of a schedule, counted from 1 (R82). -/
def Steps.target (st : Steps) (n : Nat) : Option KilnTarget :=
  match st with
  | .moisture l => l[n - 1]?.map fun x => ⟨x.dry, x.depression⟩
  | .time l => l[n - 1]?.map fun x => ⟨x.dry, x.depression⟩

/-- The target in force in a phase that is not DRYING (R82). -/
def Schedule.phaseTarget (x : Schedule) : Phase → Option KilnTarget
  | .drying => x.steps.target 1
  | .equalizing => x.equalize.map fun e => ⟨e.dry, e.depression⟩
  | .conditioning => x.conditioning.map fun e => ⟨e.dry, e.depression⟩
  | .cooling => some ⟨x.coolEnd, 0⟩

/-- A new target: the dry setpoint is kept and the wet setpoint is recomputed at once (R83). -/
def Kiln.retarget (kl : Kiln) (t : Option KilnTarget) : Kiln :=
  { kl with target := t, wet := match t with
      | some t => wetOf kl.dry t.depression
      | none => kl.wet }

/-- Entry to step `n` (R86). -/
def Kiln.enterStep (kl : Kiln) (x : Schedule) (n : Nat) : Kiln :=
  { kl.retarget (x.steps.target n) with step := n, stepOn := 0, overtime := false }

/-- Entry to a phase (R87). -/
def Kiln.enterPhase (kl : Kiln) (x : Schedule) (ph : Phase) : Kiln :=
  { kl.retarget (x.phaseTarget ph) with step := 0, stepOn := 0, phaseOn := 0, overtime := false }

/-- The end of cooling (R89): the timer stops; report, age and stale flag are kept. -/
def Kiln.finish (kl : Kiln) : Kiln :=
  { kl with dry := 0, wet := 0, target := none, step := 0, accumulator := 0, offRun := 0, onRun := 0, deviation := .inBand,
            timer := false }

/-- A change of step or phase. -/
inductive Change
  | step (n : Nat)
  | phase (ph : Phase)
  | dried
deriving DecidableEq, Repr

/-- The phase after DRYING and EQUALIZING when neither is skipped over by a disabled one (R87). -/
def afterEqualizing (x : Schedule) : Phase := if x.conditioning.isSome then .conditioning else .cooling

def afterDrying (x : Schedule) : Phase := if x.equalize.isSome then .equalizing else afterEqualizing x

/-- The change that ends the present step or phase (R86, R87, R89, R94). -/
def nextChange (x : Schedule) (ph : Phase) (step : Nat) : Change :=
  match ph with
  | .drying => if step < x.steps.count then .step (step + 1) else .phase (afterDrying x)
  | .equalizing => .phase (afterEqualizing x)
  | .conditioning => .phase .cooling
  | .cooling => .dried

def Change.kiln (ch : Change) (x : Schedule) (kl : Kiln) : Kiln :=
  match ch with
  | .step n => kl.enterStep x n
  | .phase ph => kl.enterPhase x ph
  | .dried => kl.finish

/-- The charge state after a change; a change of step leaves it. -/
def Change.chargeState (ch : Change) (old : ChargeState) : ChargeState :=
  match ch with
  | .step _ => old
  | .phase ph => .active ph
  | .dried => .dried

/-- The kiln record and the charge record change together, KILN_PHASE is raised and a trace record is written (R87). -/
def State.kilnChange (s : State) (k : KilnNo) (id : Nat) (kl : Kiln) (f : Charge → Charge) (kind : TraceKind) : State :=
  (((s.setKiln k kl).modifyCharge id f).raiseAll .kilnPhase).writeTrace k id kind

/-- The in-use count of the charge's schedule falls by one when the charge becomes DRIED (R46, R89). -/
def State.returnSchedule (s : State) (c : Charge) (ch : Change) : State :=
  match ch, c.schedule with
  | .dried, some n => s.setInUse n (s.inUse n - 1)
  | _, _ => s

/-- Make a change of step or phase, with its trace record of kind `kind`; `more` is what else the event does to the charge. -/
def State.applyChange (s : State) (k : KilnNo) (c : Charge) (x : Schedule) (ch : Change) (more : Charge → Charge)
    (kind : TraceKind) : State :=
  (s.returnSchedule c ch).kilnChange k c.id (ch.kiln x (s.kiln k))
    (fun c => more { c with state := ch.chargeState c.state }) kind

/-- The schedule a charge is loaded under (R59); its in-use count keeps it present (R46). -/
def State.scheduleOf (s : State) (c : Charge) : Option Schedule := c.schedule.bind s.schedule

/-! ## KILN REPORT (R78) -/

/-- The states in which a report is taken. -/
def takesReport : ChargeState → Bool
  | .loaded | .active _ | .held _ _ => true
  | _ => false

/-- The kiln record after a report. -/
def Kiln.reported (kl : Kiln) (rep : KilnReport) : Kiln := { kl with report := some rep, age := 0, stale := false }

/-- The effect of a report that is not ignored: SENSOR_STALE and a STALE_OFF record where the stale flag was set. -/
def State.storeReport (s : State) (k : KilnNo) (id : Nat) (rep : KilnReport) : State :=
  let t := s.setKiln k ((s.kiln k).reported rep)
  if (s.kiln k).stale then (t.raiseAll .sensorStale).writeTrace k id .staleOff else t

/-- The charge of a kiln that takes its reports. -/
def State.reportingCharge (s : State) (k : KilnNo) : Option Charge :=
  (s.kilnCharge k).filter fun c => takesReport c.state

/-- KILN REPORT at its take. -/
def kilnReportAct : Act := fun _ r s => do
  let (k, rep) ← fields (readKilnReport r.body)
  match s.reportingCharge k with
  | some c =>
    return (s.storeReport k c.id rep,
      [.num 1 (kilnNumber k), .flag false, .sym (.state c.state.name), .num 1 (s.kiln k).step, .num 2 (s.kiln k).dry,
        .num 2 (s.kiln k).wet])
  | none =>
    return (s, [.num 1 (kilnNumber k), .flag true, .sym (.state (s.kilnState k)), .num 1 0, .num 2 0, .num 2 0])

def execKilnReport (p : Port) (s : State) : Result := takeRequest 0x30 kilnReportAct p s

/-! ## The kiln commands (R91 to R95) -/

/-- A kiln command: the claim check, then a kiln that holds a charge under a present schedule, then the command's own rule,
which answers none where the charge's state does not accept it; the answer shows the record after the command (section 5.9). -/
def kilnCommand (rule : KilnNo → Charge → Schedule → State → Option State) : Act := fun p r s => do
  let k ← fields (readKilnOnly r.body)
  let _ ← claimCheck (.kiln k) p s
  let c ← orRefuse (s.kilnCharge k) .badState
  let x ← orRefuse (s.scheduleOf c) .badState
  let t ← orRefuse (rule k c x s) .badState
  return (t, [.num 1 (kilnNumber k), .num 2 c.id, .sym (.state (t.kilnState k)), .num 1 (t.kiln k).step,
    .num 2 (t.kiln k).dry, .num 2 (t.kiln k).wet])

/-- A temperature clamped to the range of a setpoint. -/
def clampSetpoint (v : Int) : Nat := (max 0 (min 1100 v)).toNat

/-- The dry setpoint START begins at (R91). -/
def Kiln.startDry (kl : Kiln) (stepDry : Nat) : Nat :=
  match kl.freshReport.bind fun rep => rep.dry.usable with
  | some v => clampSetpoint v
  | none => stepDry

/-- The kiln record after START (R91, R76, R90). -/
def Kiln.started (kl : Kiln) (x : Schedule) : Kiln :=
  let t := (x.steps.target 1).getD ⟨0, 0⟩
  { kl with
    dry := kl.startDry t.dry, wet := wetOf (kl.startDry t.dry) t.depression, target := some t, accumulator := 0, step := 1,
    stepOn := 0, phaseOn := 0, overtime := false, offRun := 0, onRun := 0, deviation := .inBand, chart := 0, timer := true }

/-- START (R91). -/
def startRule (k : KilnNo) (c : Charge) (x : Schedule) (s : State) : Option State :=
  match c.state with
  | .loaded => some (s.kilnChange k c.id ((s.kiln k).started x) (fun c => { c with state := .active .drying }) .start)
  | _ => none

def execStart (p : Port) (s : State) : Result := takeRequest 0x31 (kilnCommand startRule) p s

/-- HOLD (R92): the kiln record is kept. -/
def holdRule (k : KilnNo) (c : Charge) (_ : Schedule) (s : State) : Option State :=
  match c.state with
  | .active ph => some (s.kilnChange k c.id (s.kiln k) (fun c => { c with state := .held ph .command }) .hold)
  | _ => none

def execHold (p : Port) (s : State) : Result := takeRequest 0x32 (kilnCommand holdRule) p s

/-- RESUME (R93): whatever the hold reason. -/
def resumeRule (k : KilnNo) (c : Charge) (_ : Schedule) (s : State) : Option State :=
  match c.state with
  | .held ph _ => some (s.kilnChange k c.id (s.kiln k) (fun c => { c with state := .active ph }) .resume)
  | _ => none

def execResume (p : Port) (s : State) : Result := takeRequest 0x33 (kilnCommand resumeRule) p s

/-- SKIP STEP (R94). -/
def skipStepRule (k : KilnNo) (c : Charge) (x : Schedule) (s : State) : Option State :=
  match c.state with
  | .active ph => some (s.applyChange k c x (nextChange x ph (s.kiln k).step) id .skip)
  | _ => none

def execSkipStep (p : Port) (s : State) : Result := takeRequest 0x34 (kilnCommand skipStepRule) p s

/-- The states STOP is taken in (R95). -/
def stopAccepts : ChargeState → Bool
  | .active .cooling => false
  | .active _ | .held _ _ => true
  | _ => false

/-- STOP (R95): COOLING is entered, afresh from HELD, and EARLY_STOP is set. -/
def stopRule (k : KilnNo) (c : Charge) (x : Schedule) (s : State) : Option State :=
  if stopAccepts c.state then
    some (s.applyChange k c x (.phase .cooling) (fun c => { c with flags := { c.flags with earlyStop := true } }) .phase)
  else none

def execStop (p : Port) (s : State) : Result := takeRequest 0x35 (kilnCommand stopRule) p s

/-! ## KILN STATUS (R97) -/

/-- The last report, or absent (log 6): dry actual, its valid flag, wet actual, its valid flag, and the core list. DEDUCED: R97
says "dry actual and wet actual with their valid flags"; that each flag follows its own actual is the model's reading
(log 37). -/
def reportFields : Option KilnReport → List Field
  | some rep => [.int 2 rep.dry.value, .flag rep.dry.valid, .int 2 rep.wet.value, .flag rep.wet.valid,
      .num 1 rep.cores.length] ++ rep.cores.map (.int 2)
  | none => [.absent 2, .absent 1, .absent 2, .absent 1, .absent 1]

/-- The schedule's step count as KILN STATUS shows it: 0 when EMPTY or DRIED. -/
def State.shownSteps (s : State) : Option Charge → Nat
  | some c => if c.state = .dried then 0 else ((s.scheduleOf c).map fun x => x.steps.count).getD 0
  | none => 0

/-- The body of KILN STATUS, in the order of R97. -/
def State.kilnStatusFields (s : State) (k : KilnNo) : List Field :=
  let kl := s.kiln k
  let c := s.kilnCharge k
  [.num 1 (kilnNumber k), .sym (.state (s.kilnState k)), .num 2 ((c.map Charge.id).getD 0)]
    ++ (match c with
      | some c => c.state.heldFields
      | none => [.absent 1, .absent 1])
    ++ [.num 1 kl.step, .num 1 (s.shownSteps c), .num 2 kl.dry, .num 2 kl.wet,
      .num 2 ((kl.target.map KilnTarget.dry).getD 0), .num 2 ((kl.target.map KilnTarget.depression).getD 0),
      .num 2 kl.stepOn, .num 2 kl.phaseOn, .sym (.deviation kl.deviation), .flag kl.overtime, .flag kl.stale, .num 2 kl.age]
    ++ reportFields kl.report
    ++ [optNum 2 (c.bind Charge.controlling), optNum 2 (c.bind Charge.wettest), optNum 1 (c.map Charge.htAccrual),
      optField 1 .flag (c.map fun c => c.flags.htCertified)]

/-- KILN STATUS at its take. -/
def kilnStatusAct : Act := fun _ r s => do
  let k ← fields (readKilnOnly r.body)
  return (s, s.kilnStatusFields k)

def execKilnStatus (p : Port) (s : State) : Result := takeRequest 0x36 kilnStatusAct p s

/-! ## The minute expiry (R76 to R90) -/

/-- Part 1: the age of the last report rises (R79). -/
def Kiln.aged (kl : Kiln) : Kiln := { kl with age := satInc max16 kl.age }

/-- Whether part 1 sets the stale flag (R79). -/
def Kiln.turnsStale (kl : Kiln) (limit : Nat) : Bool := !kl.stale && decide (limit ≤ kl.aged.age)

/-- Part 1 (R79). -/
def minuteAge (k : KilnNo) (id : Nat) (s : State) : State :=
  if (s.kiln k).turnsStale (s.param 4) then
    ((s.setKiln k { (s.kiln k).aged with stale := true }).raiseAll .sensorStale).writeTrace k id .staleOn
  else s.setKiln k (s.kiln k).aged

/-- Whether the dry actual is usable and within the tolerance of the dry setpoint, either way (R80). -/
def Kiln.inTolerance (kl : Kiln) (tolerance : Nat) : Bool :=
  match kl.freshReport.bind fun rep => rep.dry.usable with
  | some v => decide ((v - kl.dry).natAbs ≤ tolerance)
  | none => false

/-- The class of a minute, for a charge in a timer-running state (R80). -/
def minuteClass (st : ChargeState) (kl : Kiln) (tolerance : Nat) : MinuteClass :=
  match st with
  | .active .cooling => if kl.stale then .offMinute else .onMinute
  | .active _ => if kl.inTolerance tolerance then .onMinute else .offMinute
  | _ => .heldMinute

/-- What a minute of a class does to the counts and runs; step on-minutes count in DRYING only (R80). -/
def Kiln.counted (kl : Kiln) (cls : MinuteClass) (drying : Bool) : Kiln :=
  match cls with
  | .onMinute =>
    { kl with phaseOn := satInc max16 kl.phaseOn, stepOn := if drying then satInc max16 kl.stepOn else kl.stepOn,
              onRun := satInc max16 kl.onRun, offRun := 0 }
  | .offMinute => { kl with offRun := satInc max16 kl.offRun, onRun := 0 }
  | .heldMinute => kl

/-- Part 2 (R80). -/
def minuteCount (k : KilnNo) (st : ChargeState) (s : State) : State :=
  s.setKiln k ((s.kiln k).counted (minuteClass st (s.kiln k) (s.param 1)) (st == .active .drying))

/-- The deviation state after part 3 (R81). -/
def Kiln.deviationAfter (kl : Kiln) (entry exit : Nat) : Deviation :=
  match kl.deviation with
  | .inBand => if entry ≤ kl.offRun then .deviating else .inBand
  | .deviating => if exit ≤ kl.onRun then .inBand else .deviating

def Deviation.traceKind : Deviation → TraceKind
  | .deviating => .deviationOn
  | .inBand => .deviationOff

/-- The deviation state becomes `d`, with its alert and record where it changes (R81). -/
def State.setDeviation (s : State) (k : KilnNo) (id : Nat) (d : Deviation) : State :=
  if d = (s.kiln k).deviation then s
  else ((s.setKiln k { s.kiln k with deviation := d }).raiseAll .kilnDeviation).writeTrace k id d.traceKind

/-- Part 3 (R81); in HELD the state stays as it was (log 31). -/
def minuteDeviation (k : KilnNo) (id : Nat) (st : ChargeState) (s : State) : State :=
  match st with
  | .active _ => s.setDeviation k id ((s.kiln k).deviationAfter (s.param 2) (s.param 3))
  | _ => s

/-- The kiln record after one minute of the ramp toward its target (R82, R108, R109). -/
def Kiln.ramped (kl : Kiln) (ramp : Nat) : Kiln :=
  match kl.target with
  | some t =>
    let (dry, acc) := rampMinute kl.dry t.dry kl.accumulator ramp
    { kl with dry := dry, wet := wetOf dry t.depression, accumulator := acc }
  | none => kl

/-- Part 4 (R82): in HELD everything is held as it is. -/
def minuteRamp (k : KilnNo) (st : ChargeState) (x : Schedule) (s : State) : State :=
  match st with
  | .active _ => s.setKiln k ((s.kiln k).ramped x.ramp)
  | _ => s

/-- A hot minute (R84). -/
def Kiln.isHot (kl : Kiln) (temperature : Nat) : Bool :=
  match kl.freshReport.bind fun rep => minCore rep.cores with
  | some v => decide ((temperature : Int) ≤ v)
  | none => false

/-- Part 5 (R84), for the charge as it stands. -/
def minuteHeat (k : KilnNo) (c : Charge) (s : State) : State :=
  if c.flags.htCertified then s
  else if (s.kiln k).isHot (s.param 5) then
    if s.param 6 ≤ c.htAccrual + 1 then
      ((s.modifyCharge c.id fun c =>
        { c with htAccrual := c.htAccrual + 1, flags := { c.flags with htCertified := true } }).raiseAll
        .htCertified).writeTrace k c.id .ht
    else s.modifyCharge c.id fun c => { c with htAccrual := c.htAccrual + 1 }
  else s.modifyCharge c.id fun c => { c with htAccrual := 0 }

/-- The present step of a MOISTURE schedule. -/
def Steps.moistureStep (st : Steps) (n : Nat) : Option MoistureStep :=
  match st with
  | .moisture l => l[n - 1]?
  | .time _ => none

/-- Whether part 6 raises STEP_OVERTIME (R85). -/
def Kiln.turnsOvertime (kl : Kiln) (x : Schedule) : Bool :=
  match x.steps.moistureStep kl.step with
  | some st => st.maxOn != 0 && decide (st.maxOn < kl.stepOn) && !kl.overtime
  | none => false

/-- The overtime test of part 6 (R85). -/
def minuteOvertime (k : KilnNo) (st : ChargeState) (x : Schedule) (s : State) : State :=
  if st = .active .drying ∧ (s.kiln k).turnsOvertime x = true then
    (s.setKiln k { s.kiln k with overtime := true }).raiseAll .stepOvertime
  else s

/-- Whether an optional figure is present and at most a bound. -/
def presentAtMost (v : Option Nat) (bound : Nat) : Bool :=
  match v with
  | some v => decide (v ≤ bound)
  | none => false

/-- The trigger of the present step (R86). -/
def stepTrigger (st : Steps) (n stepOn : Nat) (controlling : Option Nat) : Bool :=
  match st with
  | .moisture l =>
    match l[n - 1]? with
    | some x => presentAtMost controlling x.threshold && decide (x.minOn ≤ stepOn)
    | none => false
  | .time l =>
    match l[n - 1]? with
    | some x => decide (x.duration ≤ stepOn)
    | none => false

/-- The end of equalizing: none while neither condition holds, otherwise whether EQ_TIMEOUT is set (R88). -/
def equalizeEnd (e : Equalize) (finalTarget : Nat) (wettest : Option Nat) (phaseOn : Nat) : Option Bool :=
  if presentAtMost wettest (finalTarget + e.band) then some false
  else if e.maxOn ≤ phaseOn then some true
  else none

/-- Whether the largest core of a fresh report is at most the end temperature (R89). -/
def Kiln.coresCooled (kl : Kiln) (endTemp : Nat) : Bool :=
  match kl.freshReport.bind fun rep => maxCore rep.cores with
  | some v => decide (v ≤ (endTemp : Int))
  | none => false

/-- Whether the trigger of the present step or phase is met, and if so whether EQ_TIMEOUT is set (R86, R88, R89). -/
def phaseTrigger (ph : Phase) (x : Schedule) (kl : Kiln) (c : Charge) : Option Bool :=
  match ph with
  | .drying => if stepTrigger x.steps kl.step kl.stepOn c.controlling then some false else none
  | .equalizing => x.equalize.bind fun e => equalizeEnd e (c.finalTarget.getD 0) c.wettest kl.phaseOn
  | .conditioning => x.conditioning.bind fun e => if e.minutes ≤ kl.phaseOn then some false else none
  | .cooling => if kl.coresCooled x.coolEnd || decide (x.coolMax ≤ kl.phaseOn) then some false else none

/-- EQ_TIMEOUT set where `b` holds, left as it is otherwise (R88). -/
def Charge.timedOut (b : Bool) (c : Charge) : Charge :=
  if b then { c with flags := { c.flags with eqTimeout := true } } else c

/-- The triggers of part 6: at most one change of step or phase (R86 to R89). -/
def minuteTrigger (k : KilnNo) (c : Charge) (x : Schedule) (s : State) : State :=
  match c.state with
  | .active ph =>
    match phaseTrigger ph x (s.kiln k) c with
    | some timeout => s.applyChange k c x (nextChange x ph (s.kiln k).step) (Charge.timedOut timeout) .phase
    | none => s
  | _ => s

/-- Part 7, while the timer still runs (R90). -/
def minuteChart (k : KilnNo) (id : Nat) (s : State) : State :=
  if (s.kiln k).timer then
    if s.param 7 ≤ (s.kiln k).chart + 1 then (s.setKiln k { s.kiln k with chart := 0 }).writeTrace k id .chart
    else s.setKiln k { s.kiln k with chart := (s.kiln k).chart + 1 }
  else s

/-- The seven parts, each on the record as the parts before it have left it (R76). A CHART record of a minute that reaches the
interval shows the kiln after the change of part 6. -/
def minuteParts (k : KilnNo) (c : Charge) (x : Schedule) (s : State) : State :=
  let s3 := minuteDeviation k c.id c.state (minuteCount k c.state (minuteAge k c.id s))
  let s5 := minuteHeat k c (minuteRamp k c.state x s3)
  minuteChart k c.id (minuteTrigger k c x (minuteOvertime k c.state x s5))

/-- The work of one minute of kiln `k`, whose timer runs (R76). -/
def State.kilnMinute (s : State) (k : KilnNo) : State :=
  match s.kilnCharge k with
  | some c =>
    match s.scheduleOf c with
    | some x => if (s.kiln k).timer then minuteParts k c x s else s
    | none => s
  | none => s

/-- A stopped timer has no expiry (R76, log 35). -/
def execKilnMinuteExpiry (k : KilnNo) (s : State) : Result := event (fun s => s.kilnMinute k) s

end Sys2Proof.Machine
end

