-- ==== Sys2Proof/Machine/Lots.lean ====
section
/-! DEFINITION. The redry lot table (chapter 8): boards that reach the redry chute, CLOSE LOT, CONVERT LOT, LOT QUERY. -/

namespace Sys2Proof.Machine

/-! ## Boards arriving (R144 to R146) -/

/-- A lot after a board of a charge joins it; it closes at 2000 pieces (R145, R146). -/
def Lot.join (x : Lot) (charge volume : Nat) : Lot :=
  let (cs, other) := joinPieces x.contributors x.other charge
  { x with
    pieces := x.pieces + 1, volume := satAdd max32 x.volume volume, contributors := cs, other := other,
    state := if Config.pieceLimit ≤ x.pieces + 1 then .closed else x.state }

/-- The OPEN lot of a key (R142). -/
def State.openLot (s : State) (species thickness : Nat) : Option Lot :=
  s.lots.lots.find? fun x => x.species == species && x.thickness == thickness && x.state == .isOpen

/-- A lot as R144 opens it, before its first board. -/
def openedLot (number species thickness : Nat) : Lot :=
  { number, species, thickness, state := .isOpen, pieces := 0, volume := 0, contributors := [], other := 0 }

/-- The number the next lot opened receives (R143). -/
def State.nextLotNumber (s : State) : Nat := newId 255 (s.lots.lots.map Lot.number) s.lots.last

/-- A board joins a lot, which stands in the table under its number; the charge is referenced where it is listed anew (R145). -/
def State.joinLot (s : State) (x : Lot) (charge volume : Nat) : State :=
  let t := s.withLots { s.lots with lots := keyPut Lot.number (x.join charge volume) s.lots.lots }
  if joinLists x.contributors charge then t.addRef charge else t

/-- A redry board arrives: the state, and the lot that took it or none for a refusal, which raises REDRY_FULL (R144). -/
def State.handToLot (s : State) (species thickness charge volume : Nat) : State × Option Nat :=
  match s.openLot species thickness with
  | some x => (s.joinLot x charge volume, some x.number)
  | none =>
    if s.lots.lots.length < Config.lotEntries then
      ((s.withLots { s.lots with last := s.nextLotNumber }).joinLot (openedLot s.nextLotNumber species thickness) charge
        volume, some s.nextLotNumber)
    else (s.raiseAll .redryFull, none)

/-! ## CLOSE LOT and CONVERT LOT (R147, R148) -/

/-- CLOSE LOT at its take (R147). -/
def closeLotAct : Act := fun _ r s => do
  let n ← fields (readOne 1 1 255 r.body)
  let x ← orRefuse (s.lot n) .noSuch
  let _ ← require (x.state == .isOpen) .badState
  return (s.withLots { s.lots with lots := keyModify Lot.number n (fun x => { x with state := .closed }) s.lots.lots },
    [.num 1 n, .num 1 x.species, .num 1 x.thickness, .num 2 x.pieces, .num 4 x.volume])

def execCloseLot (p : Port) (s : State) : Result := takeRequest 0x50 closeLotAct p s

/-- The charge a lot is converted into (R148). -/
def Lot.charge (x : Lot) (id : Nat) : Charge :=
  { newCharge id x.species x.thickness x.volume with
    flags := { ChargeFlags.clear with redry := true }
    origin := some { ids := x.contributors.map Contributor.charge, other := x.other != 0 } }

/-- CONVERT LOT at its take (R148). -/
def convertLotAct : Act := fun _ r s => do
  let n ← fields (readOne 1 1 255 r.body)
  let x ← orRefuse (s.lot n) .noSuch
  let _ ← require s.chargeEntryFree .tableFull
  let c := x.charge s.nextChargeId
  return (((s.addCharge c).dropRefs x.contributors).withLots
      { s.lots with lots := keyErase Lot.number n s.lots.lots },
    [.num 1 n, .num 2 c.id, .num 1 x.species, .num 1 x.thickness, .num 2 x.pieces, .num 4 x.volume]
      ++ originFields c.origin)

def execConvertLot (p : Port) (s : State) : Result := takeRequest 0x51 convertLotAct p s

/-! ## LOT QUERY (R150) -/

/-- The body for one lot. -/
def Lot.fields (x : Lot) : List Field :=
  [.num 1 x.number, .sym (.lot x.state), .num 1 x.species, .num 1 x.thickness, .num 2 x.pieces, .num 4 x.volume,
    .num 1 x.contributors.length] ++ (x.contributors.flatMap fun c => [.num 2 c.charge, .num 2 c.pieces])
    ++ [.num 2 x.other]

/-- A lot in the table listing. -/
def Lot.listFields (x : Lot) : List Field :=
  [.num 1 x.number, .sym (.lot x.state), .num 1 x.species, .num 1 x.thickness, .num 2 x.pieces]

/-- LOT QUERY at its take. -/
def lotQueryAct : Act := fun _ r s => do
  let n ← fields (readOne 1 0 255 r.body)
  if n = 0 then
    return (s, [.num 1 s.lots.lots.length, .num 1 (Config.lotEntries - s.lots.lots.length), .num 1 s.lots.last]
      ++ s.lots.lots.flatMap Lot.listFields)
  else do
    let x ← orRefuse (s.lot n) .noSuch
    return (s, x.fields)

def execLotQuery (p : Port) (s : State) : Result := takeRequest 0x52 lotQueryAct p s

end Sys2Proof.Machine
end

