-- ==== Sys2Proof/Machine/Label.lean ====
section
/-! DEFINITION. The label engine (chapter 10): composing a label, the printer bus, the label queue and its completion, faults,
halting and the printer requests; and the entry of CLOSED packs into the label queue (R162, R163). -/

namespace Sys2Proof.Machine

/-! ## Texts of numbers (R174, R175) -/

def digit (n : Nat) : Byte := BitVec.ofNat 8 (0x30 + n % 10)

/-- The decimal digits of a number below 10 ^ fuel, without leading zeros. -/
def digitsOf : (fuel n : Nat) → Text
  | 0, n => [digit n]
  | fuel + 1, n => if n < 10 then [digit n] else digitsOf fuel (n / 10) ++ [digit n]

/-- A number in decimal with no leading zeros; 0 is "0" (R174). -/
def decimal (n : Nat) : Text := digitsOf n n

/-- A number in exactly `w` digits, with leading zeros (R175). -/
def padded : (w n : Nat) → Text
  | 0, _ => []
  | w + 1, n => padded w (n / 10) ++ [digit n]

/-- A full stop, a comma, a plus sign, a hyphen, a colon and a space. -/
def chStop : Byte := 0x2E
def chComma : Byte := 0x2C
def chPlus : Byte := 0x2B
def chHyphen : Byte := 0x2D
def chColon : Byte := 0x3A
def chSpace : Byte := 0x20

/-- Field 9: cubic metres with three decimals, from cm³ (R175). -/
def volumeText (cm3 : Nat) : Text :=
  decimal (roundHalfUp cm3 1000 / 1000) ++ chStop :: padded 3 (roundHalfUp cm3 1000)

/-- The four digits of a year; those of a year above 9999 are free (log 22). -/
def yearText (year : Nat) : Text :=
  if year ≤ 9999 then padded 4 year else (List.range 4).map (Config.lateYearDigit year)

/-- A date and time as "YYYY-MM-DD HH:MM" (R175). -/
def dateText (d : DateTime) : Text :=
  yearText d.year ++ chHyphen :: padded 2 d.month ++ chHyphen :: padded 2 d.day ++ chSpace :: padded 2 d.hour
    ++ chColon :: padded 2 d.minute

/-- Field 14: the closed time, or "----" (R175). -/
def closedText : Option Nat → Text
  | some m => dateText (dateOf m)
  | none => List.replicate 4 chHyphen

/-- Field 10: the mean of the readings in percent with one decimal, or "--" (R176). -/
def meanText (metered mcSum : Nat) : Text :=
  if metered = 0 then [chHyphen, chHyphen]
  else decimal (roundHalfUp mcSum metered / 10) ++ chStop :: padded 1 (roundHalfUp mcSum metered)

/-- "KD", "HT" and "REPRINT". -/
def kdText : Text := [0x4B, 0x44]
def htText : Text := [0x48, 0x54]
def reprintText : Text := [0x52, 0x45, 0x50, 0x52, 0x49, 0x4E, 0x54]

/-- The records of a pack's contributor charges. -/
def State.contributorCharges (s : State) (cs : List Contributor) : List Charge := cs.filterMap fun c => s.charge c.charge

/-- Field 11: the highest final target among the contributors, in whole percent (R176). -/
def State.driedText (s : State) (cs : List Contributor) : Text :=
  kdText ++ decimal (roundHalfUp (((s.contributorCharges cs).filterMap Charge.finalTarget).foldl max 0) 10)

/-- Whether every contributor is certified and the pack has no other pieces (R176). -/
def State.marksHeat (s : State) (q : Pack) : Bool :=
  q.other == 0 && q.contributors.all fun c =>
    match s.charge c.charge with
    | some c => c.flags.htCertified
    | none => false

/-- Field 13: the contributor ids, separated by commas, with "+" for other pieces (R176). -/
def contributorText (cs : List Contributor) (other : Nat) : Text :=
  ((cs.map fun c => decimal c.charge).intersperse [chComma]).flatten ++ (if other = 0 then [] else [chPlus])

/-- Field 16 (R175). -/
def JobKind.mark : JobKind → Text
  | .pack => []
  | .reprint => reprintText

/-- The sixteen label fields, composed from the state as it stands (R174 to R176). -/
def State.labelFields (s : State) (kind : JobKind) (serial : Nat) (q : Pack) : List Text :=
  [s.library.params.header,
    decimal q.id,
    ((s.species q.key.species).map Species.label).getD [],
    decimal q.key.thickness,
    decimal q.key.width,
    s.gradeText q.key.grade,
    s.bandText q.key.band,
    decimal q.pieces,
    volumeText q.volume,
    meanText q.metered q.mcSum,
    s.driedText q.contributors,
    if s.marksHeat q then htText else [],
    contributorText q.contributors q.other,
    closedText q.closedAt,
    padded 6 serial,
    kind.mark]

/-! ## The bus (R177, R178) -/

/-- The phases of a bus cycle. -/
inductive BusPhase | setup | strobe | hold
deriving DecidableEq, Repr

/-- The levels the part gives the printer bus: LD where it drives it, LAS, LWS# and LRS#. -/
structure BusPins where
  ld : Option Byte
  las : Bool
  lwsN : Bool
  lrsN : Bool
deriving DecidableEq, Repr

/-- The levels in a phase of a cycle, and between cycles (R177). -/
def Bus.pins (b : Bus) (ph : BusPhase) : BusPins :=
  match b with
  | .cycle ⟨.address a, _, _, _⟩ => { ld := some a, las := ph == .strobe, lwsN := true, lrsN := true }
  | .cycle ⟨.write d, _, _, _⟩ => { ld := some d, las := false, lwsN := ph != .strobe, lrsN := true }
  | .cycle ⟨.read, _, _, _⟩ => { ld := none, las := false, lwsN := true, lrsN := ph != .strobe }
  | _ => { ld := none, las := false, lwsN := true, lrsN := true }

/-- The text of the field in progress. -/
def LabelEngine.fieldText (e : LabelEngine) (k : Nat) : Text := e.fields.getD (k - 1) []

/-- The byte at place `place` of field `k`: its address, then its length, then its characters (R179). -/
def LabelEngine.fieldCycle (e : LabelEngine) (k place : Nat) : CycleKind :=
  match place with
  | 0 => .address (BitVec.ofNat 8 k)
  | 1 => .write (BitVec.ofNat 8 (e.fieldText k).length)
  | i + 2 => .write ((e.fieldText k).getD i 0)

/-- The cycle the engine makes next (R179, R180); the execute phase is an address cycle with field address 0. -/
def LabelEngine.nextCycle (e : LabelEngine) : CycleKind :=
  match e.field with
  | some 0 => .address 0
  | some k => e.fieldCycle k e.place
  | none => .read

/-- The cycle begins, with the phase lengths as they stand (R177). -/
def State.startCycle (s : State) : State :=
  s.withLabel { s.label with
    bus := .cycle { kind := s.label.nextCycle, setup := s.param 15, strobe := s.param 16, hold := s.param 17 } }

/-- LBSY is sampled before a cycle: low begins it, high waits with the timeout as it stands (R178). -/
def State.beginCycle (s : State) (lbsy : Bool) : State :=
  if lbsy then s.withLabel { s.label with bus := .waiting (s.param 14) } else s.startCycle

/-! ## Starting a job (R173, R174) -/

/-- The serial of a job that starts: its own, or the next (R173). -/
def LabelEngine.startSerial (e : LabelEngine) (j : Job) : Nat := j.serial.getD (wrapNext 999999 e.lastSerial)

/-- The head job starts: its serial, its fields, SENDING with field 1, and the first LBSY sample (R174). -/
def State.startHead (s : State) (lbsy : Bool) : State :=
  match s.label.queue with
  | [] => s
  | j :: rest =>
    let serial := s.label.startSerial j
    let fields := match s.pack j.pack with
      | some q => s.labelFields j.kind serial q
      | none => List.replicate 16 []
    (s.withLabel { s.label with
      queue := { j with serial := some serial } :: rest, state := .sending, halt := none, haltPending := false,
      field := some 1, lastSerial := if j.serial.isSome then s.label.lastSerial else serial, fields := fields, place := 0,
      reads := [], bus := .rest }).beginCycle lbsy

/-- A job enters at the tail; an IDLE engine starts it (R171, R174). -/
def State.appendJob (s : State) (lbsy : Bool) (j : Job) : State :=
  let t := s.withLabel { s.label with queue := s.label.queue ++ [j] }
  if s.label.state = .idle then t.startHead lbsy else t

/-! ## CLOSED packs and the label queue (R162) -/

/-- The pack becomes LABEL_QUEUED and its PACK job is appended (R162). -/
def State.queuePack (s : State) (lbsy : Bool) (id : Nat) : State :=
  (s.modifyPack id fun q => { q with state := .labelQueued }).appendJob lbsy { kind := .pack, pack := id, serial := none }

/-- A pack that has just closed enters the queue at once if a place is left (R162). -/
def State.offerPack (s : State) (lbsy : Bool) (id : Nat) : State :=
  if s.label.queue.length < Config.labelPlaces then s.queuePack lbsy id else s

/-- The CLOSED packs, in close order. -/
def State.closedPacks (s : State) : List Nat :=
  s.packs.closeList.filter fun id =>
    match s.pack id with
    | some q => q.state == .closed
    | none => false

/-- CLOSED packs enter in close order until the queue holds 8 jobs or none remains (R162). -/
def State.fillQueue (s : State) (lbsy : Bool) : State :=
  (s.closedPacks.take (Config.labelPlaces - s.label.queue.length)).foldl (fun t id => t.queuePack lbsy id) s

/-! ## Faults, halts and completion (R180 to R182) -/

/-- The engine halts: the composed fields are held no longer (R174) and the bus is between cycles. -/
def LabelEngine.halted (e : LabelEngine) (reason : HaltReason) : LabelEngine :=
  { e with state := .halted, halt := some reason, haltPending := false, field := none, fields := [], place := 0, reads := [],
           bus := .rest }

/-- A fault (R181). -/
def State.printerFault (s : State) (reason : HaltReason) : State :=
  (s.withLabel (s.label.halted reason)).raiseAll .printerFault

/-- The engine after a job that has left the queue: HALTED where a halt was pending, else IDLE (R180). -/
def LabelEngine.afterJob (e : LabelEngine) : LabelEngine :=
  if e.haltPending then e.halted .command
  else { e with state := .idle, halt := none, field := none, fields := [], place := 0, reads := [], bus := .rest }

/-- What a verified job does to its pack and the close list (R163). -/
def State.finishPack (s : State) (j : Job) : State :=
  match j.kind with
  | .pack =>
    let t := s.modifyPack j.pack fun q => { q with state := .labelled, serial := j.serial }
    t.withPacks { t.packs with closeList := t.packs.closeList.filter fun id => id != j.pack }
  | .reprint => s.modifyPack j.pack fun q => { q with reprints := satInc max8 q.reprints }

/-- A verified job completes: its pack, its place in the queue, the CLOSED packs that enter it, then HALTED or IDLE with the
next job's start (R180, R162, R174). -/
def State.completeJob (s : State) (lbsy : Bool) (j : Job) (rest : List Job) : State :=
  let t := ((s.finishPack j).withLabel { s.label with queue := rest }).fillQueue lbsy
  let u := t.withLabel t.label.afterJob
  if u.label.state = .idle then u.startHead lbsy else u

/-- The verify after the fourth read (R180): `bs` are the three bytes of the serial. -/
def State.verify (s : State) (lbsy : Bool) (bs : List Byte) : State :=
  let t := s.withLabel { s.label with lastVerify := some bs }
  match t.label.queue with
  | [] => t.printerFault .verify
  | j :: rest => if j.serial = some (beNat bs) then t.completeJob lbsy j rest else t.printerFault .verify

/-! ## The end of a cycle (R179, R180) -/

/-- The field after field `k`: the execute phase follows field 16. -/
def fieldAfter (k : Nat) : Nat := if k < 16 then k + 1 else 0

/-- The engine goes on to its next cycle, or halts where a halt is pending (R182). -/
def State.fieldEnd (s : State) (lbsy : Bool) (next : LabelEngine) : State :=
  if s.label.haltPending then s.withLabel (s.label.halted .command) else (s.withLabel next).beginCycle lbsy

/-- A cycle of field `k` ends (R179). -/
def State.sendNext (s : State) (lbsy : Bool) (k : Nat) : State :=
  if k = 0 then s.fieldEnd lbsy { s.label with state := .verifying, field := none, place := 0, reads := [] }
  else if s.label.place ≤ (s.label.fieldText k).length then
    (s.withLabel { s.label with place := s.label.place + 1 }).beginCycle lbsy
  else s.fieldEnd lbsy { s.label with field := some (fieldAfter k), place := 0 }

/-- A read cycle ends with the byte `ld` sampled (R180). -/
def State.readNext (s : State) (lbsy : Bool) (ld : Byte) : State :=
  if s.label.reads.length < 3 then (s.withLabel { s.label with reads := s.label.reads ++ [ld] }).beginCycle lbsy
  else s.verify lbsy (s.label.reads.drop 1 ++ [ld])

/-- A bus cycle completes at the end of its hold phase (R177); between cycles none is in progress (log 35). -/
def State.cycleEnd (s : State) (lbsy : Bool) (ld : Byte) : State :=
  match s.label.bus with
  | .cycle _ =>
    let t := s.withLabel { s.label with bus := .rest }
    match t.label.field with
    | some k => t.sendNext lbsy k
    | none => t.readNext lbsy ld
  | _ => s

def execBusCycleComplete (lbsy : Bool) (ld : Byte) (s : State) : Result := event (fun s => s.cycleEnd lbsy ld) s

/-- The fall of LBSY ends a wait and begins the cycle; without a wait it has no effect (R178). -/
def State.busyFalls (s : State) : State :=
  match s.label.bus with
  | .waiting _ => s.startCycle
  | _ => s

def execLbsyFall (s : State) : Result := event State.busyFalls s

/-- The printer timeout runs out in a wait (R178). -/
def State.busyTimeout (s : State) : State :=
  match s.label.bus with
  | .waiting _ => s.printerFault .timeout
  | _ => s

def execPrinterTimeout (s : State) : Result := event State.busyTimeout s

/-! ## The printer requests (R172, R182 to R184) -/

/-- REPRINT at its take (R172). -/
def reprintAct (lbsy : Bool) : Act := fun p r s => do
  let _ ← claimCheck .printer p s
  let id ← fields (readOne 2 1 65535 r.body)
  let q ← orRefuse (s.pack id) .noSuch
  let _ ← require (q.state == .labelled) .badState
  let _ ← require (decide (s.label.queue.length < Config.labelPlaces)) .tableFull
  return (s.appendJob lbsy { kind := .reprint, pack := id, serial := q.serial },
    [.num 2 id, optNum 4 q.serial, .num 1 (s.label.queue.length + 1)])

def execReprint (p : Port) (lbsy : Bool) (s : State) : Result := takeRequest 0x70 (reprintAct lbsy) p s

/-- HALT PRINTER on the engine (R182): none where it is refused BAD_STATE. -/
def LabelEngine.haltRequested (e : LabelEngine) : Option LabelEngine :=
  match e.state with
  | .idle => some (e.halted .command)
  | .sending | .verifying => if e.haltPending then none else some { e with haltPending := true }
  | .halted => none

/-- HALT PRINTER at its take (R182). -/
def haltPrinterAct : Act := fun p _ s => do
  let _ ← claimCheck .printer p s
  let e ← orRefuse s.label.haltRequested .badState
  return (s.withLabel e, [.sym (.engine e.state), .flag e.haltPending, optNum 1 e.field])

def execHaltPrinter (p : Port) (s : State) : Result := takeRequest 0x71 haltPrinterAct p s

/-- RESUME PRINTER on the machine (R183): none where it is refused BAD_STATE. -/
def State.resumed (s : State) (lbsy : Bool) : Option State :=
  match s.label.state with
  | .halted =>
    if s.label.queue.isEmpty then some (s.withLabel { s.label with state := .idle, halt := none })
    else some (s.startHead lbsy)
  | .sending | .verifying =>
    if s.label.haltPending then some (s.withLabel { s.label with haltPending := false }) else none
  | .idle => none

/-- A job's kind, pack id and serial, or absent (R183, R184). -/
def Job.fields (j : Job) : List Field := [.sym (.job j.kind), .num 2 j.pack, optNum 4 j.serial]

/-- RESUME PRINTER at its take (R183). -/
def resumePrinterAct (lbsy : Bool) : Act := fun p _ s => do
  let _ ← claimCheck .printer p s
  let t ← orRefuse (s.resumed lbsy) .badState
  return (t, .sym (.engine t.label.state) ::
    match t.label.queue with
    | j :: _ => j.fields
    | [] => [.absent 1, .absent 2, .absent 4])

def execResumePrinter (p : Port) (lbsy : Bool) (s : State) : Result := takeRequest 0x72 (resumePrinterAct lbsy) p s

/-- The three bytes of the last verify read, or absent. -/
def verifyFields : Option (List Byte) → List Field
  | some bs => bs.map .byte
  | none => [.absent 3]

/-- PRINTER STATUS at its take (R184). -/
def printerStatusAct : Act := fun _ _ s =>
  .ok (s, [.sym (.engine s.label.state), optField 1 (fun h => .sym (.halt h)) s.label.halt, .flag s.label.haltPending,
      optNum 1 s.label.field, .num 4 s.label.lastSerial] ++ verifyFields s.label.lastVerify
    ++ .num 1 s.label.queue.length :: s.label.queue.flatMap Job.fields)

def execPrinterStatus (p : Port) (s : State) : Result := takeRequest 0x73 printerStatusAct p s

end Sys2Proof.Machine
end

