-- ==== Sys2Proof/Machine/Packs.lean ====
section
/-! DEFINITION. The pack builder (chapter 9): bin targets, boards arriving at a bin, closing, releasing and the pack queries. -/

namespace Sys2Proof.Machine

/-! ## Closing (R161) -/

/-- The short flag each close cause gives (R161). -/
def CloseCause.short : CloseCause → Bool
  | .target | .targetChange => false
  | .limit | .keyChange | .command => true

def Pack.closed (q : Pack) (cause : CloseCause) (time : Option Nat) : Pack :=
  { q with state := .closed, cause := some cause, short := cause.short, closedAt := time }

/-- A pack closes: its record, the close list, PACK_CLOSED, and its offer to the label queue (R161). -/
def State.closePack (s : State) (lbsy : Bool) (id : Nat) (cause : CloseCause) : State :=
  let t := s.modifyPack id fun q => q.closed cause s.clock.stamp
  let u := t.withPacks { t.packs with closeList := t.packs.closeList ++ [id] }
  (u.raiseAll .packClosed).offerPack lbsy id

/-- Whether a pack meets a target (R152). -/
def BinTarget.met (t : BinTarget) (q : Pack) : Bool :=
  match t with
  | .pieces v => decide (v ≤ q.pieces)
  | .volume v => decide (v ≤ q.volume)

/-! ## Boards arriving at a bin (R156 to R159) -/

/-- A board as the planer tracker hands it on (R135). -/
structure HandedBoard where
  charge : Nat
  key : PackKey
  volume : Nat
  reading : Option Nat
  cls : BoardClass
deriving DecidableEq, Repr

/-- The smaller or larger of an optional figure and a reading, the reading where the figure is absent (R158). -/
def foldReading (f : Nat → Nat → Nat) (x : Option Nat) (reading : Nat) : Option Nat := some ((x.map (f · reading)).getD reading)

/-- The moisture counts after a board (R158). -/
def Pack.meter (q : Pack) : Option Nat → Pack
  | some v =>
    { q with metered := q.metered + 1, mcSum := q.mcSum + v, mcMin := foldReading min q.mcMin v,
             mcMax := foldReading max q.mcMax v }
  | none => { q with unmetered := q.unmetered + 1 }

/-- A pack after a board is added to it (R158). -/
def Pack.add (q : Pack) (b : HandedBoard) : Pack :=
  let (cs, other) := joinPieces q.contributors q.other b.charge
  { q with
    pieces := q.pieces + 1, volume := satAdd max32 q.volume b.volume, contributors := cs, other := other,
    overdry := q.overdry + (if b.cls = BoardClass.overdry then 1 else 0) : Pack }.meter b.reading

/-- The close that follows an addition, if any (R159). -/
def Pack.closeAfter (q : Pack) (t : BinTarget) : Option CloseCause :=
  if t.met q then some .target else if Config.pieceLimit ≤ q.pieces then some .limit else none

/-- A board is added to an OPEN pack, which then closes on its target or the piece limit (R158, R159). -/
def State.addBoard (s : State) (lbsy : Bool) (q : Pack) (b : HandedBoard) : State :=
  let t := s.modifyPack q.id fun _ => q.add b
  let u := if joinLists q.contributors b.charge then t.addRef b.charge else t
  match (q.add b).closeAfter (s.target q.bin) with
  | some cause => u.closePack lbsy q.id cause
  | none => u

/-- The id the next pack opened receives (R154). -/
def State.nextPackId (s : State) : Nat := newId 65535 (s.packs.packs.map Pack.id) s.packs.lastId

/-- A pack as R156 opens it, before its first board. -/
def openedPack (id bin : Nat) (key : PackKey) (time : Option Nat) : Pack :=
  { id, bin, key, state := .isOpen, pieces := 0, volume := 0, contributors := [], other := 0, metered := 0, mcSum := 0,
    mcMin := none, mcMax := none, overdry := 0, unmetered := 0, openedAt := time, closedAt := none, cause := none,
    short := false, serial := none, reprints := 0 }

/-- A refusal: REGISTER_FULL where the blocked flag was 0 (R157). -/
def State.refuseBoard (s : State) : State :=
  if s.packs.blocked then s else (s.withPacks { s.packs with blocked := true }).raiseAll .registerFull

/-- A board for a bin without an OPEN pack: it opens a pack, or is refused (R156, steps 3 and 4). -/
def State.openForBoard (s : State) (lbsy : Bool) (bin : Nat) (b : HandedBoard) : State × Option Nat :=
  if s.packs.packs.length < Config.packEntries then
    let q := openedPack s.nextPackId bin b.key s.clock.stamp
    ((s.withPacks { s.packs with packs := keyPut Pack.id q s.packs.packs, lastId := q.id }).addBoard lbsy q b, some q.id)
  else (s.refuseBoard, none)

/-- A board handed to a bin: the state, and the pack that took it or none for a refusal (R156). -/
def State.handToBin (s : State) (lbsy : Bool) (bin : Nat) (b : HandedBoard) : State × Option Nat :=
  match s.openPack bin with
  | some q =>
    if q.key = b.key then (s.addBoard lbsy q b, some q.id)
    else (s.closePack lbsy q.id .keyChange).openForBoard lbsy bin b
  | none => s.openForBoard lbsy bin b

/-! ## SET BIN TARGET, CLOSE PACK, RELEASE PACK (R153, R160, R165) -/

def State.setTarget (s : State) (bin : Nat) (t : BinTarget) : State :=
  s.withPacks { s.packs with targets := s.packs.targets.set (slot1 19 bin) t }

/-- The OPEN pack of a bin that meets a target (R153). -/
def State.meeting (s : State) (bin : Nat) (t : BinTarget) : Option Pack := (s.openPack bin).filter t.met

/-- SET BIN TARGET at its take (R153). -/
def setBinTargetAct (lbsy : Bool) : Act := fun p r s => do
  let _ ← claimCheck .planer p s
  let (bin, t) ← fields (readBinTarget r.body)
  return (match s.meeting bin t with
      | some q => (s.setTarget bin t).closePack lbsy q.id .targetChange
      | none => s.setTarget bin t,
    [.num 1 bin, .num 1 t.kindCode, .num 4 t.value, .num 1 (s.target bin).kindCode, .num 4 (s.target bin).value,
      .num 2 (((s.meeting bin t).map Pack.id).getD 0)])

def execSetBinTarget (p : Port) (lbsy : Bool) (s : State) : Result := takeRequest 0x60 (setBinTargetAct lbsy) p s

/-- CLOSE PACK at its take (R160). -/
def closePackAct (lbsy : Bool) : Act := fun _ r s => do
  let bin ← fields (readOne 1 1 20 r.body)
  let q ← orRefuse (s.openPack bin) .badState
  let t := s.closePack lbsy q.id .command
  return (t, [.num 1 bin, .num 2 q.id, .num 2 q.pieces, .num 4 q.volume,
    .sym (.pack (((t.pack q.id).map Pack.state).getD .closed))])

def execClosePack (p : Port) (lbsy : Bool) (s : State) : Result := takeRequest 0x61 (closePackAct lbsy) p s

/-- Whether a REPRINT job naming the pack is queued (R165). -/
def LabelEngine.reprints (e : LabelEngine) (id : Nat) : Bool := e.queue.any fun j => j.kind == .reprint && j.pack == id

def PackKey.fields (x : PackKey) : List Field :=
  [.num 1 x.species, .num 1 x.thickness, .num 2 x.width, .num 1 x.grade, .num 1 x.band]

/-- RELEASE PACK at its take (R165). -/
def releasePackAct : Act := fun _ r s => do
  let id ← fields (readOne 2 1 65535 r.body)
  let q ← orRefuse (s.pack id) .noSuch
  let _ ← require (q.state == .labelled) .badState
  let _ ← require (!s.label.reprints id) .inUse
  return ((s.dropRefs q.contributors).withPacks
      { s.packs with packs := keyErase Pack.id id s.packs.packs, blocked := false },
    [.num 2 id, .num 1 q.bin] ++ q.key.fields ++ [.num 2 q.pieces, .num 4 q.volume, optNum 4 q.serial, .num 1 q.reprints]
      ++ idList (q.contributors.map Contributor.charge) ++ [.flag (q.other != 0)])

def execReleasePack (p : Port) (s : State) : Result := takeRequest 0x62 releasePackAct p s

/-! ## PACK QUERY (R167, R168) -/

/-- The place of an id in a list counted from 1, or 0 (R167). -/
def placeIn (id : Nat) (l : List Nat) : Nat :=
  match l.findIdx? fun x => x == id with
  | some i => i + 1
  | none => 0

/-- A contributor count and its items. -/
def contributorFields (cs : List Contributor) : List Field :=
  .num 1 cs.length :: cs.flatMap fun c => [.num 2 c.charge, .num 2 c.pieces]

/-- The body of form 0, in the order of R167. -/
def Pack.fields (q : Pack) (closeList : List Nat) : List Field :=
  [.num 2 q.id, .num 1 q.bin, .sym (.pack q.state)] ++ q.key.fields
    ++ [optField 1 (fun c => .sym (.closeCause c)) q.cause, .flag q.short, .num 2 q.pieces, .num 4 q.volume]
    ++ contributorFields q.contributors
    ++ [.num 2 q.other, .num 2 q.metered, .num 4 q.mcSum, optNum 2 q.mcMin, optNum 2 q.mcMax, .num 2 q.overdry,
      .num 2 q.unmetered, optNum 4 q.openedAt, optNum 4 q.closedAt, optNum 4 q.serial, .num 1 q.reprints,
      .num 1 (placeIn q.id closeList)]

/-- The body of form 1 (R168); bodyOf cuts it at 248 bytes. -/
def PackBuilder.listing (b : PackBuilder) : List Field :=
  [.num 1 b.packs.length, .num 2 b.lastId, .flag b.blocked]
    ++ (b.packs.flatMap fun q => [.num 2 q.id, .binState q.bin q.state]) ++ idList b.closeList

/-- One bin of form 2 (R168). -/
def State.binFields (s : State) (bin : Nat) : List Field :=
  [.num 1 (s.target bin).kindCode, .num 4 (s.target bin).value, .num 2 (((s.openPack bin).map Pack.id).getD 0),
    .num 2 (((s.openPack bin).map Pack.pieces).getD 0)]

/-- PACK QUERY at its take. -/
def packQueryAct : Act := fun _ r s => do
  let form ← fields (readPackForm r.body)
  match form with
  | .single id =>
    let q ← orRefuse (s.pack id) .noSuch
    return (s, q.fields s.packs.closeList)
  | .listing => return (s, s.packs.listing)
  | .bins => return (s, (List.range 20).flatMap fun i => s.binFields (i + 1))

def execPackQuery (p : Port) (s : State) : Result := takeRequest 0x63 packQueryAct p s

end Sys2Proof.Machine
end

