-- ==== Sys2Proof/Machine/Planer.lean ====
section
/-! DEFINITION. The planer tracker (chapter 7): runs and their sources, eye edges, meter frames, grade reports and the sort
decision, the sort map, RUN STATUS. -/

namespace Sys2Proof.Machine

/-! ## The run and its charges (R118, R120) -/

def State.withRun (s : State) (r : Option Run) : State := s.withTracker { s.tracker with run := r }

/-- Whether a charge is in the source list of the run in progress. -/
def State.isListed (s : State) (id : Nat) : Bool :=
  match s.tracker.run with
  | some r => r.sources.contains id
  | none => false

/-- A PLANING charge that is unlisted with no board in flight becomes PLANED (R64, R120). -/
def Charge.settle (listed : Bool) (c : Charge) : Charge :=
  if c.state = .planing ∧ c.stats.inFlight = 0 ∧ listed = false then { c with state := .planed } else c

def State.settle (s : State) (id : Nat) : State := s.modifyCharge id (Charge.settle (s.isListed id))

/-- The boards in flight of a charge rise or fall by one (R64). -/
def Charge.fly (c : Charge) : Charge := { c with stats := { c.stats with inFlight := c.stats.inFlight + 1 } }
def Charge.land (c : Charge) : Charge := { c with stats := { c.stats with inFlight := c.stats.inFlight - 1 } }

/-- A board of a charge has left queue B (R120). -/
def State.boardLeft (s : State) (id : Nat) : State := (s.modifyCharge id Charge.land).settle id

def RunCounters.zero : RunCounters := { boardsIn := 0, packed := 0, redry := 0, rejected := 0, lost := 0, unmetered := 0 }

def RunCounters.fields (c : RunCounters) : List Field :=
  [.num 4 c.boardsIn, .num 4 c.packed, .num 4 c.redry, .num 4 c.rejected, .num 4 c.lost, .num 4 c.unmetered]

/-- The run ends: its summary is kept and the record becomes absent (R117, R124 to R126). -/
def State.endRun (s : State) (r : Run) (kind : EndKind) : State :=
  s.withTracker { s.tracker with
    run := none, summary := some { number := r.number, ended := kind, counters := r.counters } }

/-! ## Opening, feeding, closing and aborting (R121 to R126) -/

/-- The run OPEN RUN begins (R118, R121); 255 in a band and 0 in the policy stand for the defaults. -/
def State.openedRun (s : State) (c : Charge) (q : OpenRunFields) : Run :=
  { number := wrapNext 255 s.tracker.lastRun, state := .isOpen, species := c.species, thickness := c.thickness,
    wetBand := if q.wetBand = 255 then s.param 8 else q.wetBand,
    dryBand := if q.dryBand = 255 then s.param 9 else q.dryBand,
    policy := policyOf (if q.policy = 0 then s.param 10 else q.policy),
    sources := [c.id], nextSeq := 1, queueA := [], queueB := [], counters := .zero, aOverrun := false, aUnderrun := false,
    bOverrun := false, meter := .ok, voidRun := 0, history := [] }

def Charge.plane (c : Charge) : Charge := { c with state := .planing }

/-- OPEN RUN at its take (R121). -/
def openRunAct : Act := fun p r s => do
  let _ ← claimCheck .planer p s
  let q ← fields (readOpenRun r.body)
  let _ ← require s.tracker.run.isNone .badState
  let c ← orRefuse (s.charge q.charge) .noSuch
  let _ ← require (c.state == .released) .badState
  let n := s.openedRun c q
  return ((s.withTracker { s.tracker with run := some n, lastRun := n.number }).modifyCharge c.id Charge.plane,
    [.num 1 n.number, .num 1 n.species, .num 1 n.thickness, .num 1 n.wetBand, .num 1 n.dryBand, .num 1 n.policy.code])

def execOpenRun (p : Port) (s : State) : Result := takeRequest 0x40 openRunAct p s

/-- The run where it is OPEN (R122, R123, R124). -/
def State.runOpen (s : State) : Option Run := s.tracker.run.filter fun r => r.state == .isOpen

/-- ADD SOURCE at its take (R122). -/
def addSourceAct : Act := fun p r s => do
  let _ ← claimCheck .planer p s
  let id ← fields (readOne 2 1 65535 r.body)
  let n ← orRefuse s.runOpen .badState
  let _ ← require (decide (n.sources.length < Config.sourceEntries)) .tableFull
  let c ← orRefuse (s.charge id) .noSuch
  let _ ← require (c.state == .released) .badState
  let _ ← require (c.species == n.species && c.thickness == n.thickness) .mismatch
  return ((s.withRun (some { n with sources := n.sources ++ [id] })).modifyCharge id fun c =>
      { c.plane with stats := { c.stats with inFlight := 0 } },
    idList (n.sources ++ [id]))

def execAddSource (p : Port) (s : State) : Result := takeRequest 0x41 addSourceAct p s

/-- ADVANCE SOURCE at its take (R123). -/
def advanceSourceAct : Act := fun p _ s => do
  let _ ← claimCheck .planer p s
  let n ← orRefuse s.runOpen .badState
  match n.sources with
  | old :: head :: rest =>
    let t := (s.withRun (some { n with sources := head :: rest })).settle old
    return (t, [.num 2 old, optField 1 (fun c => .sym (.state (Charge.state c).name)) (t.charge old),
      optNum 1 ((t.charge old).map fun c => c.stats.inFlight), .num 2 head])
  | _ => .error .badState

def execAdvanceSource (p : Port) (s : State) : Result := takeRequest 0x42 advanceSourceAct p s

/-- A PLANING charge becomes PLANED. -/
def Charge.planed (c : Charge) : Charge := if c.state = .planing then { c with state := .planed } else c

/-- Every listed charge, PLANING since it was listed (R120), becomes PLANED (R124). -/
def State.planeAll (s : State) (ids : List Nat) : State := ids.foldl (fun t id => t.modifyCharge id Charge.planed) s

/-- Every charge of a list settles (R124). -/
def State.settleAll (s : State) (ids : List Nat) : State := ids.foldl State.settle s

/-- CLOSE RUN at its take (R124). -/
def closeRunAct : Act := fun p _ s => do
  let _ ← claimCheck .planer p s
  let n ← orRefuse s.runOpen .badState
  if n.queueA.isEmpty && n.queueB.isEmpty then
    return ((s.planeAll n.sources).endRun n .closed,
      [.num 1 n.number, .sym (.ended .closed)] ++ n.counters.fields ++ [.flag true])
  else
    return ((s.withRun (some { n with state := .draining, sources := [] })).settleAll n.sources,
      .num 1 n.number :: n.counters.fields ++ [.flag false])

def execCloseRun (p : Port) (s : State) : Result := takeRequest 0x43 closeRunAct p s

/-- A PLANING charge returns to RELEASED without a board in flight (R64, R71). -/
def Charge.unplane (c : Charge) : Charge :=
  if c.state = .planing then { c with state := .released, stats := { c.stats with inFlight := 0 } } else c

/-- The charges of a run: those listed and those with boards queued. -/
def Run.charges (n : Run) : List Nat := n.sources ++ n.queueA.map Board.charge ++ n.queueB.map Board.charge

/-- The counters after ABORT RUN gives up every board (R126). -/
def Run.abortCounters (n : Run) : RunCounters :=
  { n.counters with lost := satAdd max32 n.counters.lost (n.queueA.length + n.queueB.length) }

/-- ABORT RUN at its take (R126). -/
def abortRunAct : Act := fun p _ s => do
  let _ ← claimCheck .planer p s
  let n ← orRefuse s.tracker.run .badState
  let m := { n with counters := n.abortCounters }
  return ((n.charges.foldl (fun t id => t.modifyCharge id Charge.unplane) s).endRun m .aborted,
    [.num 1 n.number, .sym (.ended .aborted)] ++ m.counters.fields)

def execAbortRun (p : Port) (s : State) : Result := takeRequest 0x44 abortRunAct p s

/-! ## Boards entering queue B (R127, R130) -/

/-- The oldest board of a full queue B is dispatched as lost (R130). -/
def State.loseOldest (s : State) (n : Run) : State × Run :=
  match n.queueB with
  | [] => (s, n)
  | b :: rest =>
    let m := { n with
      queueB := rest, bOverrun := true, counters := { n.counters with lost := satInc max32 n.counters.lost } }
    ((((s.withRun (some m)).boardLeft b.charge).raiseAll .trackOverrun), m)

/-- Room is made in queue B where it is full. -/
def State.roomInB (s : State) (n : Run) : State × Run :=
  if Config.queueBBoards ≤ n.queueB.length then s.loseOldest n else (s, n)

/-- The oldest board of a full queue A moves to queue B without a reading (R127, R112). -/
def State.overrunA (s : State) (n : Run) : State × Run :=
  match n.queueA with
  | [] => (s, n)
  | b :: rest =>
    let (t, m) := s.roomInB n
    let m := { m with
      queueA := rest
      queueB := m.queueB ++ [{ b with reading := none, saturated := false, cls := some .noReading }]
      aOverrun := true }
    ((t.withRun (some m)).raiseAll .trackOverrun, m)

/-- The run after a board of charge `id` is appended to queue A (R127, R119). -/
def Run.append (n : Run) (id : Nat) : Run :=
  { n with
    queueA := n.queueA ++ [{ seq := n.nextSeq, charge := id, reading := none, saturated := false, cls := none }]
    nextSeq := wrapNext 65535 n.nextSeq
    counters := { n.counters with boardsIn := satInc max32 n.counters.boardsIn } }

/-- An eye edge with a run OPEN (R127). -/
def State.boardArrives (s : State) (n : Run) : State :=
  let (t, m) := if Config.queueABoards ≤ n.queueA.length then s.overrunA n else (s, n)
  let id := m.sources.headD 0
  (t.withRun (some (m.append id))).modifyCharge id Charge.fly

/-- A stray board (R128). -/
def State.strayBoard (s : State) : State :=
  (s.withTracker { s.tracker with stray := satInc max16 s.tracker.stray }).raiseAll .strayBoard

/-- The filtered level rises: one eye edge (R127, R128). Where it is high already there is no change (log 35). -/
def State.eyeRises (s : State) : State :=
  if s.tracker.eye then s
  else
    let t := s.withTracker { s.tracker with eye := true }
    match t.runOpen with
    | some n => t.boardArrives n
    | none => t.strayBoard

def execEyeEdge (s : State) : Result := event State.eyeRises s

/-- The filtered level falls, without effect on boards (R127). -/
def execEyeFilteredFall (s : State) : Result := event (fun s => s.withTracker { s.tracker with eye := false }) s

/-! ## Meter frames (R129 to R131) -/

/-- A frame as it arrives: its raw reading and temperature, or void. -/
abbrev MeterFrame := Option (Nat × Int)

/-- The number of valid frames in a history. -/
def validCount (h : List Bool) : Nat := (h.filter id).length

/-- The history with the newest validity, at most 16 entries (R131, step 1). -/
def pushHistory (h : List Bool) (valid : Bool) : List Bool :=
  if Config.historyEntries < h.length + 1 then (h ++ [valid]).drop 1 else h ++ [valid]

/-- Whether the last three entries are valid. -/
def lastThreeValid (h : List Bool) : Bool := h.reverse.take 3 == [true, true, true]

/-- The meter state after a frame (R131, steps 3 and 4). -/
def meterAfter (lossRun : Nat) (old : MeterState) (valid : Bool) (voidRun : Nat) (h : List Bool) : MeterState :=
  match old with
  | .ok => if !valid && decide (lossRun ≤ voidRun) then .lost else .ok
  | .lost => if valid && lastThreeValid h && decide (8 ≤ validCount h) then .ok else .lost

/-- The run after step 1 to 4 of R131. -/
def Run.metered (n : Run) (lossRun : Nat) (valid : Bool) : Run :=
  let h := pushHistory n.history valid
  let v := if valid then 0 else satInc max8 n.voidRun
  { n with history := h, voidRun := v, meter := meterAfter lossRun n.meter valid v h }

/-- A board with the reading a frame gives it, and its class (R110 to R112): none in METER_LOST or from a void frame. -/
def State.meterBoard (s : State) (n : Run) (f : MeterFrame) (b : Board) : Board :=
  let charge := s.charge b.charge
  match if n.meter = .ok then f else none, charge.bind fun c => s.species c.species with
  | some (raw, temp), some sp =>
    let (r, saturated) := conditionRaw raw
    let reading := correctedMC sp r (conditionTemp temp)
    { b with
      reading := some reading, saturated := saturated
      cls := some (classOf ((charge.bind Charge.finalTarget).getD 0) n.wetBand n.dryBand reading saturated) }
  | _, _ => { b with reading := none, saturated := false, cls := some .noReading }

/-- The charge of a board classed with a reading: its statistics (R114) and the test that follows (R115). -/
def Charge.fedBack (c : Charge) (minimum limit : Nat) (cls : BoardClass) (reading : Nat) : Charge :=
  let d := { c with stats := c.stats.classified cls reading }
  if turnsWet minimum limit d then { d with flags := { d.flags with chargeWet := true } } else d

/-- Charge wet feedback of a metered board (R114, R115). -/
def State.feedBack (s : State) (b : Board) : State :=
  match b.reading, b.cls, s.charge b.charge with
  | some reading, some cls, some c =>
    let d := c.fedBack (s.param 12) (s.param 11) cls reading
    (s.modifyCharge c.id fun _ => d).raiseIf (d.flags.chargeWet && !c.flags.chargeWet) .chargeWet
  | _, _, _ => s

/-- A frame pairs with the oldest board of queue A (R130). -/
def State.pairFrame (s : State) (n : Run) (f : MeterFrame) (b : Board) (rest : List Board) : State :=
  let (t, m) := s.roomInB n
  let x := t.meterBoard m f b
  (t.withRun (some { m with queueA := rest, queueB := m.queueB ++ [x] })).feedBack x

/-- A frame arrives with a run present (R130, R131). -/
def State.frameInRun (s : State) (n : Run) (f : MeterFrame) : State :=
  let m := n.metered (s.param 13) f.isSome
  let t := (s.withRun (some m)).raiseIf (m.meter != n.meter) .meterState
  match m.queueA with
  | [] => (t.withRun (some { m with aUnderrun := true })).raiseAll .trackOverrun
  | b :: rest => t.pairFrame m f b rest

/-- A frame arrives: the receiver is empty again, and without a run nothing else happens (R129, R130). -/
def State.frameArrives (s : State) (f : MeterFrame) : State :=
  let t := s.withTracker { s.tracker with receiver := [] }
  match t.tracker.run with
  | some n => t.frameInRun n f
  | none => t

/-- The start byte of a frame, and the code for no contact (R129). -/
def startByte : Byte := 0xA5
def noContact : Nat := 0xFFFF

/-- The frame that five bytes make (R129). -/
def frameOf (l : List MeterByte) : MeterFrame :=
  match l with
  | [a, hi, lo, t, check] =>
    let raw := beNat [hi.byte, lo.byte]
    if raw = noContact ∨ check.byte ≠ a.byte + hi.byte + lo.byte + t.byte ∨ l.any MeterByte.framingError = true then none
    else some (raw, t.byte.toInt)
  | _ => none

/-- The fifth byte of a frame ends it; with fewer than four bytes held no frame ends (log 35). -/
def State.fifthByte (s : State) (x : MeterByte) : State :=
  if s.tracker.receiver.length = 4 then s.frameArrives (frameOf (s.tracker.receiver ++ [x])) else s

def execMeterFrame (b : Byte) (framingError : Bool) (s : State) : Result :=
  event (fun s => s.fifthByte ⟨b, framingError⟩) s

/-- A byte that does not end a frame: outside a frame all but the start byte are discarded (R129). -/
def receiveByte (l : List MeterByte) (x : MeterByte) : List MeterByte :=
  if l.isEmpty then (if x.byte = startByte then [x] else []) else if l.length < 4 then l ++ [x] else l

def execMeterByteReceived (b : Byte) (framingError : Bool) (s : State) : Result :=
  event (fun s => s.withTracker { s.tracker with receiver := receiveByte s.tracker.receiver ⟨b, framingError⟩ }) s

/-- The line has been idle for 5 ms after a byte of a frame, which ends void (R129). -/
def State.meterIdle (s : State) : State := if s.tracker.receiver.isEmpty then s else s.frameArrives none

def execMeterIdleTimeout (s : State) : Result := event State.meterIdle s

/-! ## BOARD GRADE (R133 to R135) -/

/-- A sort decision as the answer shows it (R135): the chute is 1 BIN, 2 REDRY, 3 REJECT, and `id` the pack or lot. -/
structure Decision where
  chute : Nat
  bin : Nat
  reason : SortReason
  id : Nat
  band : Nat
  volume : Nat
deriving DecidableEq, Repr

/-- The codes of R135. -/
def SortReason.code : SortReason → Nat
  | .sorted => 0
  | .wet => 1
  | .noReading => 2
  | .gradeZero => 3
  | .unmapped => 4
  | .binBlocked => 5
  | .redryFull => 6

/-- The chute REJECT, which names no pack or lot and no volume (R135). -/
def rejected (reason : SortReason) (band : Nat) : Decision :=
  { chute := 3, bin := 0, reason, id := 0, band, volume := 0 }

/-- Why a board goes to REDRY at step 1, if it does (R134). -/
def redryReason (cls : Option BoardClass) (policy : Policy) : Option SortReason :=
  match cls, policy with
  | some .wet, _ => some .wet
  | some .noReading, .redry => some .noReading
  | _, _ => none

/-- The bin the sort map names for a key (R134, step 3). -/
def Tracker.binOf (t : Tracker) (grade width band : Nat) : Option Nat :=
  (t.sortMap.find? fun e => e.grade == grade && e.width == width && e.band == band).map SortEntry.bin

/-- The volume of a board from its charge's thickness and the report (R113). -/
def State.volumeOf (s : State) (n : Run) (b : Board) (g : GradeReport) : Nat :=
  boardVolume (((s.charge b.charge).map Charge.thickness).getD n.thickness) g.width g.length

/-- Steps 3 and 4 of the sort decision (R134). -/
def State.sortToBin (s : State) (lbsy : Bool) (n : Run) (b : Board) (g : GradeReport) : State × Decision :=
  let band := bandOf s.library.bands g.length
  match s.tracker.binOf g.grade g.width band with
  | none => (s, rejected .unmapped band)
  | some bin =>
    let v := s.volumeOf n b g
    let (t, taken) := s.handToBin lbsy bin
      { charge := b.charge, key := ⟨n.species, n.thickness, g.width, g.grade, band⟩, volume := v, reading := b.reading,
        cls := b.cls.getD .noReading }
    match taken with
    | some id => (t, { chute := 1, bin := bin, reason := .sorted, id := id, band := band, volume := v })
    | none => (t, rejected .binBlocked band)

/-- The sort decision (R134), with its hand-off. -/
def State.sortBoard (s : State) (lbsy : Bool) (n : Run) (b : Board) (g : GradeReport) : State × Decision :=
  match redryReason b.cls n.policy with
  | some reason =>
    let v := s.volumeOf n b g
    let (t, taken) := s.handToLot n.species n.thickness b.charge v
    match taken with
    | some lot => (t, { chute := 2, bin := 0, reason := reason, id := lot, band := 0, volume := v })
    | none => (t, rejected .redryFull 0)
  | none => if g.grade = 0 then (s, rejected .gradeZero 0) else s.sortToBin lbsy n b g

/-- The counters after a decision (R134, R135). -/
def RunCounters.decided (c : RunCounters) (chute : Nat) (accepted : Bool) : RunCounters :=
  { c with
    packed := if chute = 1 then satInc max32 c.packed else c.packed
    redry := if chute = 2 then satInc max32 c.redry else c.redry
    rejected := if chute = 3 then satInc max32 c.rejected else c.rejected
    unmetered := if accepted then satInc max32 c.unmetered else c.unmetered }

/-- Whether a board is sent on without a reading under the ACCEPT policy (R134). -/
def sentUnmetered (n : Run) (b : Board) : Bool := b.cls == some .noReading && n.policy == .accept

/-- The run after a board has left queue B with a decision (R135). -/
def Run.decided (n : Run) (b : Board) (d : Decision) : Run :=
  { n with
    queueB := n.queueB.eraseP fun x => x.seq == b.seq
    counters := n.counters.decided d.chute (sentUnmetered n b) }

/-- Whether a DRAINING run ends as the last board leaves (R125). -/
def Run.drained (n : Run) : Bool := n.state == .draining && n.queueA.isEmpty && n.queueB.isEmpty

/-- The board leaves queue B after its decision, its charge settles, and a drained run ends (R135, R125). -/
def State.dispatch (s : State) (n : Run) (b : Board) (d : Decision) : State :=
  let m := n.decided b d
  let t := (s.withRun (some m)).boardLeft b.charge
  if m.drained then t.endRun m .closed else t

/-- The body of the answer (R135). -/
def gradeFields (b : Board) (d : Decision) (ended : Bool) : List Field :=
  [.num 2 b.seq, .num 2 b.charge, optField 1 (fun c => .sym (.boardClass c)) b.cls, .num 1 d.chute, .num 1 d.bin,
    .num 1 d.reason.code, .num 2 d.id, .num 1 d.band, .num 4 d.volume, .flag ended]

/-- BOARD GRADE at its take (R133). -/
def boardGradeAct (lbsy : Bool) : Act := fun _ r s => do
  let g ← fields (readGradeReport r.body)
  let n ← orRefuse s.tracker.run .badState
  let _ ← require (!n.queueA.any fun b => b.seq == g.seq) .notMetered
  let b ← orRefuse (n.queueB.find? fun b => b.seq == g.seq) .unknownBoard
  let (t, d) := s.sortBoard lbsy n b g
  return (t.dispatch n b d, gradeFields b d (n.decided b d).drained)

def execBoardGrade (p : Port) (lbsy : Bool) (s : State) : Result := takeRequest 0x45 (boardGradeAct lbsy) p s

/-! ## The sort map (R137, R138) -/

/-- The order of the sort map: grade, then width, then band (R140). -/
def SortEntry.key (e : SortEntry) : Nat := e.grade * 100000 + e.width * 10 + e.band

/-- PUT SORT ENTRY at its take (R137). -/
def putSortEntryAct : Act := fun p r s => do
  let _ ← claimCheck .planer p s
  let e ← fields (readSortEntry r.body)
  let old := s.tracker.binOf e.grade e.width e.band
  let _ ← require (old.isSome || decide (s.tracker.sortMap.length < Config.sortEntries)) .tableFull
  return (s.withTracker { s.tracker with sortMap := keyPut SortEntry.key e s.tracker.sortMap },
    [.num 1 e.grade, .num 2 e.width, .num 1 e.band, .num 1 e.bin, .num 1 (old.getD 0)])

def execPutSortEntry (p : Port) (s : State) : Result := takeRequest 0x46 putSortEntryAct p s

/-- REMOVE SORT ENTRY at its take (R138). -/
def removeSortEntryAct : Act := fun p r s => do
  let _ ← claimCheck .planer p s
  let (grade, width, band) ← fields (readSortKeyOnly r.body)
  let bin ← orRefuse (s.tracker.binOf grade width band) .noSuch
  return (s.withTracker { s.tracker with
      sortMap := s.tracker.sortMap.filter fun e => !(e.grade == grade && e.width == width && e.band == band) },
    [.num 1 grade, .num 2 width, .num 1 band, .num 1 bin])

def execRemoveSortEntry (p : Port) (s : State) : Result := takeRequest 0x47 removeSortEntryAct p s

/-- CLEAR SORT MAP at its take (R138). -/
def clearSortMapAct : Act := fun p _ s => do
  let _ ← claimCheck .planer p s
  return (s.withTracker { s.tracker with sortMap := [] }, [.num 1 s.tracker.sortMap.length])

def execClearSortMap (p : Port) (s : State) : Result := takeRequest 0x48 clearSortMapAct p s

/-! ## RUN STATUS (R139, R140) -/

def RunState.name : RunState → RunStateName
  | .isOpen => .isOpen
  | .draining => .draining

/-- The items shown when a run exists (R139). -/
def Run.fields (n : Run) : List Field :=
  [.num 1 n.number, .num 1 n.species, .num 1 n.thickness, .num 1 n.wetBand, .num 1 n.dryBand, .num 1 n.policy.code]
    ++ idList n.sources ++ [.num 2 n.nextSeq, .num 1 n.queueA.length, .num 1 n.queueB.length] ++ n.counters.fields
    ++ [.flag n.aOverrun, .flag n.aUnderrun, .flag n.bOverrun, .sym (.meter n.meter), .num 1 n.voidRun,
      .num 1 (validCount n.history), .num 1 n.history.length]

/-- The last run summary, or absent (R139, log 6). -/
def summaryFields : Option RunSummary → List Field
  | some x => [.num 1 x.number, .sym (.ended x.ended)] ++ x.counters.fields
  | none => [.absent 1, .absent 1, .absent 4, .absent 4, .absent 4, .absent 4, .absent 4, .absent 4]

/-- The summary form (R139). -/
def Tracker.summaryForm (t : Tracker) : List Field :=
  match t.run with
  | some n => .sym (.run n.state.name) :: n.fields ++ .num 2 t.stray :: summaryFields t.summary
  | none => .sym (.run .none) :: .num 2 t.stray :: summaryFields t.summary

/-- The sticky flags cleared, after they have been copied (R139). -/
def Run.clearSticky (n : Run) : Run := { n with aOverrun := false, aUnderrun := false, bOverrun := false }

def Board.fields (b : Board) : List Field :=
  [.num 2 b.seq, .num 2 b.charge, optNum 2 b.reading, .flag b.saturated, optField 1 (fun c => .sym (.boardClass c)) b.cls]

/-- A queue form (R140): at most 32 boards from position `first`. -/
def queueForm (q : List Board) (first : Nat) : List Field :=
  let l := (q.drop (first - 1)).take 32
  [.num 1 q.length, .num 1 first, .num 1 l.length] ++ l.flatMap Board.fields

def SortEntry.fields (e : SortEntry) : List Field := [.num 1 e.grade, .num 2 e.width, .num 1 e.band, .num 1 e.bin]

/-- RUN STATUS at its take (R139, R140). -/
def runStatusAct : Act := fun _ r s => do
  let form ← fields (readRunForm r.body)
  match form with
  | .summary => return (s.withRun (s.tracker.run.map Run.clearSticky), s.tracker.summaryForm)
  | .queueA first => return (s, queueForm ((s.tracker.run.map Run.queueA).getD []) first)
  | .queueB first => return (s, queueForm ((s.tracker.run.map Run.queueB).getD []) first)
  | .sortMap => return (s, .num 1 s.tracker.sortMap.length :: s.tracker.sortMap.flatMap SortEntry.fields)

def execRunStatus (p : Port) (s : State) : Result := takeRequest 0x49 runStatusAct p s

end Sys2Proof.Machine
end

