-- ==== Sys2Proof/WellFormed.lean ====
section
/-! DEFINITION. Which commands can be a step of the part at all: checks of the operands alone, whatever the state.
Exec does not consult them; a command that is not well formed changes nothing where its occasion cannot be (log 35). -/

namespace Sys2Proof

/-- The ports a request kind is accepted from (R5): the port check of POST lets no other port's request be POSTED. -/
def portMayTake : Instr → Bool
  | .kilnReport p | .sampleWeights p => p == .K
  | .boardGrade p _ => p == .P
  | .seize p | .restart p _ _ | .setClock p | .releasePack p | .retireCharge p | .convertLot p | .closeLot p
  | .closePack p _ | .setTraceMark p => p == .Y
  | .defineCharge p | .setSamples p => p != .P
  | _ => true

/-- A cut warm start has written at most one RESTART record for each of the twelve kilns (R189), and none before the
kiln units made their changes. -/
def startEndOk : StartEnd → Bool
  | .completes => true
  | .cut charges _ records => records ≤ 12 && (charges || records == 0)

/-- The operands name something that can happen on the part. -/
def wellFormed (i : Instr) : Bool :=
  (match i with
    | .unknownTransfer _ kind _ => kindIsUnknown kind
    | .warmStart _ _ e => startEndOk e
    | _ => true) && portMayTake i

end Sys2Proof
end

