-- ==== Sys2Proof/Machine/Ports.lean ====
section
/-! DEFINITION. The port unit: frames and the nine transfer commands, and the arrival of answers (chapter 1). -/

namespace Sys2Proof.Machine

/-! ## Frames (R2, R3, R8, R11) -/

/-- What a frame of a transfer is made of: its declared length where the bytes received so far settle it (R2, R21), what the
part sends after the status byte, and what the transfer does at its completion, with the last result its rule gives. -/
structure Transfer where
  declared : OpenFrame → Option Nat
  reply : OpenFrame → List Byte
  act : OpenFrame → State → State × LastResult

/-- A frame that opens now: the status byte is sampled (R3). From the fall of PWRST# until a start completes the part sends
0x00 and no frame acts (R20). -/
def State.newFrame (s : State) (p : Port) : OpenFrame :=
  { status := if s.retention.phase = .running then s.statusByte p else 0, copy := none, received := [], sent := [],
    cut := decide (s.retention.phase ≠ .running) }

/-- The frame in progress on a port, or one that opens now. -/
def State.frameOf (s : State) (p : Port) : OpenFrame := (s.port p).frame.getD (s.newFrame p)

/-- The kind byte becomes complete: the copy is taken (R8, R11) and the status byte has been sent. -/
def State.kindByte (s : State) (p : Port) (f : OpenFrame) : OpenFrame :=
  match f.copy with
  | some _ => f
  | none =>
    { f with
      copy := some { buffer := (s.port p).buffer, status := s.statusRecord p }
      sent := [if f.cut then 0 else f.status] }

/-- Further complete bytes are exchanged: those received are kept, and each sent byte is the reply's next, 0x00 beyond it and
0x00 throughout a cut frame (R2, R19, R20). -/
def OpenFrame.exchange (f : OpenFrame) (reply : List Byte) (bs : List Byte) : OpenFrame :=
  { f with
    received := f.received ++ bs
    sent := f.sent ++ (List.range bs.length).map fun i => if f.cut then 0 else reply.getD (f.received.length + i) 0 }

/-- The frame after its kind byte and the bytes `bs`. -/
def State.frameAfter (s : State) (t : Transfer) (p : Port) (bs : List Byte) : OpenFrame :=
  let f := s.kindByte p (s.frameOf p)
  f.exchange (t.reply f) bs

/-- Whether a frame of `received.length + 1` complete bytes holds at least its declared length (R2). -/
def isComplete (t : Transfer) (f : OpenFrame) : Bool :=
  match t.declared f with
  | some n => decide (n ≤ f.received.length + 1)
  | none => false

/-- The chip select rises: the frame is no longer in progress, and what was sent is kept (log 20). -/
def State.closeFrame (s : State) (p : Port) (f : OpenFrame) : State :=
  s.setPort p { s.port p with frame := none, sent := f.sent }

def State.setLast (s : State) (p : Port) (r : LastResult) : State := s.setPort p { s.port p with last := r }

/-- A short frame does not act: the frame error count rises and the last result becomes FRAME_SHORT (R2). -/
def State.shortFrame (s : State) (p : Port) : State :=
  s.setPort p { s.port p with errors := satInc max8 (s.port p).errors, last := .frameShort }

/-- The end of a frame: a cut frame does not act and is not counted (R19, R20); a short one is discarded; a complete one acts,
and the last result becomes what its rule gives (R2). -/
def State.endFrame (s : State) (t : Transfer) (p : Port) (f : OpenFrame) : State :=
  if f.cut then s.closeFrame p f
  else if isComplete t f then
    let (u, r) := t.act f (s.closeFrame p f)
    u.setLast p r
  else (s.closeFrame p f).shortFrame p

/-- One event of a frame of a part that has main power. -/
def State.frameEvent (s : State) (t : Transfer) (p : Port) : FrameEvent → State
  | .falls => s.setPort p { s.port p with frame := some (s.newFrame p) }
  | .bytes bs => s.setPort p { s.port p with frame := some (s.frameAfter t p bs) }
  | .rises bs => s.endFrame t p (s.frameAfter t p bs)
  | .empty => s.setPort p { s.port p with frame := none }

/-- One event of a frame of a part without main power: it drives nothing and no frame acts (log 16). -/
def State.deadFrameEvent (s : State) (p : Port) : FrameEvent → State
  | .falls | .bytes _ => s.setPort p { s.port p with frame := some (s.frameOf p) }
  | .rises _ | .empty => s.setPort p { s.port p with frame := none, sent := [] }

/-- One event of a frame (R2). -/
def transfer (t : Transfer) (p : Port) (e : FrameEvent) (s : State) : Result :=
  .next (if s.retention.phase = .off then s.deadFrameEvent p e else s.frameEvent t p e)

/-- A transfer that sends nothing of its own and has a fixed declared length. -/
def plainTransfer (length : Nat) (act : OpenFrame → State → State × LastResult) : Transfer :=
  { declared := fun _ => some length, reply := fun _ => [], act := act }

/-! ## POST (R4, R5) -/

/-- The request kinds and the ports that may carry each (section 1.10, R5): 7 is any port, and 4, 2, 1 stand for K, P, Y. -/
def requestKinds : List (Nat × Nat) :=
  [(0x01, 7), (0x02, 7), (0x03, 1),
    (0x10, 7), (0x11, 7), (0x12, 7), (0x13, 7), (0x14, 7), (0x15, 7), (0x16, 7), (0x17, 7),
    (0x20, 5), (0x21, 5), (0x22, 7), (0x23, 7), (0x24, 1), (0x25, 7), (0x26, 4),
    (0x30, 4), (0x31, 7), (0x32, 7), (0x33, 7), (0x34, 7), (0x35, 7), (0x36, 7),
    (0x40, 7), (0x41, 7), (0x42, 7), (0x43, 7), (0x44, 7), (0x45, 2), (0x46, 7), (0x47, 7), (0x48, 7), (0x49, 7),
    (0x50, 1), (0x51, 1), (0x52, 7),
    (0x60, 7), (0x61, 1), (0x62, 1), (0x63, 7),
    (0x70, 7), (0x71, 7), (0x72, 7), (0x73, 7),
    (0x80, 7), (0x81, 1), (0x82, 1),
    (0x90, 7), (0x91, 7), (0x92, 1)]

/-- The bit of a port in a row of `requestKinds`. -/
def portBit : Port → Nat
  | .K => 2
  | .P => 1
  | .Y => 0

/-- Whether a request kind carries a kiln number in field 1 (R5): LOAD, UNLOAD, START, HOLD, RESUME, SKIP STEP, STOP,
KILN REPORT or KILN STATUS. -/
def isKilnRequest (kind : Nat) : Bool :=
  [0x22, 0x23, 0x30, 0x31, 0x32, 0x33, 0x34, 0x35, 0x36].contains kind

/-- The three checks of R5, in their order. -/
def portCheck (p : Port) (r : Request) : Option Reason :=
  match requestKinds.find? fun row => row.1 == r.kind.toNat with
  | none => some .badKind
  | some row =>
    if !row.2.testBit (portBit p) then some .wrongPort
    else if isKilnRequest r.kind.toNat then
      match readKiln (fieldsOf r.body) with
      | .ok _ => none
      | .error _ => some (.badField 1)
    else none

/-- The request record of a POST frame: request kind, tag, length and body (R21). -/
def requestOf (bs : List Byte) : Request :=
  { kind := bs.getD 0 0
    tag := BitVec.ofNat 16 (beNat ((bs.drop 1).take 2))
    body := (bs.drop 4).take (bs.getD 3 0).toNat }

/-- POST's declared length: 5 + L, or 5 when the length byte is above 248, whatever the slot state (R4, R21). -/
def postDeclared (f : OpenFrame) : Option Nat :=
  match f.received[3]? with
  | none => none
  | some l => if l.toNat ≤ Config.bodyBytes then some (5 + l.toNat) else some 5

/-- An accepted POST stores the request and the ticket rises by one; the slot becomes POSTED, or the port unit takes a request
that fails its checks itself and hands the refusal back (R4, R5). -/
def State.accept (s : State) (p : Port) (r : Request) : State :=
  let t := s.setPort p { s.port p with slot := .posted r, ticket := (s.port p).ticket + 1 }
  match portCheck p r with
  | none => t
  | some e => t.handBack p r (.refused e)

/-- POST at its completion (R4). DESIGN CHOICE: a length byte above 248 that meets a slot that is not EMPTY is BAD_LENGTH and
not SLOT_BUSY; R4 gives both cases and no precedence (log 36). -/
def postAct (p : Port) (f : OpenFrame) (s : State) : State × LastResult :=
  if Config.bodyBytes < (f.received.getD 3 0).toNat then (s, .badLength)
  else match (s.port p).slot with
    | .empty => (s.accept p (requestOf f.received), .ok)
    | _ => (s, .slotBusy)

def execPost (p : Port) (e : FrameEvent) (s : State) : Result :=
  transfer { declared := postDeclared, reply := fun _ => [], act := postAct p } p e s

/-! ## WITHDRAW (R7) -/

/-- WITHDRAW at its completion. -/
def withdrawAct (p : Port) (_ : OpenFrame) (s : State) : State × LastResult :=
  match (s.port p).slot with
  | .posted _ => (s.setPort p { s.port p with slot := .empty }, .ok)
  | .taken _ => (s, .tooLate)
  | .doneWaiting _ => (s, .tooLate)
  | .empty => (s, .none)

def execWithdraw (p : Port) (e : FrameEvent) (s : State) : Result :=
  transfer (plainTransfer 1 (withdrawAct p)) p e s

/-! ## FETCH (R8) -/

/-- The answer in the copy a FETCH was built from. -/
def OpenFrame.answer (f : OpenFrame) : Option Answer := f.copy.bind FrameCopy.buffer

/-- What FETCH sends: the answer length and the answer record, or the empty marker (R8). -/
def fetchReply (f : OpenFrame) : List Byte :=
  match f.answer with
  | some a => BitVec.ofNat 8 a.bytes.length :: a.bytes
  | none => [0]

/-- The answer enters the empty buffer and ANSWER_READY is raised at the port (R6). -/
def State.enterBuffer (s : State) (p : Port) (a : Answer) : State :=
  s.setPort p ({ s.port p with buffer := some a, slot := .empty }.raise .answerReady)

/-- FETCH at its completion: a buffer that was copied empties, and a staged answer moves into it (R8). -/
def fetchAct (p : Port) (f : OpenFrame) (s : State) : State × LastResult :=
  match f.answer with
  | none => (s, .ok)
  | some _ =>
    match (s.port p).slot with
    | .doneWaiting a => (s.enterBuffer p a, .ok)
    | _ => (s.setPort p { s.port p with buffer := none }, .ok)

def execFetch (p : Port) (e : FrameEvent) (s : State) : Result :=
  transfer { declared := fun f => some (1 + (fetchReply f).length), reply := fetchReply, act := fetchAct p } p e s

/-! ## PEEK (R11) -/

/-- The status record in the copy a PEEK was built from. -/
def peekReply (f : OpenFrame) : List Byte :=
  match f.copy with
  | some c => c.status
  | none => []

def execPeek (p : Port) (e : FrameEvent) (s : State) : Result :=
  transfer { declared := fun _ => some 16, reply := peekReply, act := fun _ t => (t, .ok) } p e s

/-! ## NOTE (R12) -/

/-- Set the port's note flags; a change raises NOTE_CHANGED at the other two ports (R12, R18). -/
def State.setNotes (s : State) (p : Port) (v : BitVec 4) : State :=
  let t := s.setPort p { s.port p with notes := v }
  if v = (s.port p).notes then t else t.raiseOthers p .noteChanged

/-- NOTE takes flags 1 to 4 from bits 0 to 3 of its second byte. -/
def noteAct (p : Port) (f : OpenFrame) (s : State) : State × LastResult :=
  (s.setNotes p ((f.received.getD 0 0).setWidth 4), .ok)

def execNote (p : Port) (e : FrameEvent) (s : State) : Result :=
  transfer (plainTransfer 2 (noteAct p)) p e s

/-! ## ACK and MASK (R16, R17) -/

/-- The cause set a frame carries, bits 19 to 23 ignored. -/
def causeSetOf (f : OpenFrame) : BitVec 24 := BitVec.ofNat 24 (beNat (f.received.take 3)) &&& causeBits

def ackAct (p : Port) (f : OpenFrame) (s : State) : State × LastResult :=
  (s.setPort p { s.port p with pending := (s.port p).pending &&& ~~~(causeSetOf f) }, .ok)

def execAck (p : Port) (e : FrameEvent) (s : State) : Result :=
  transfer (plainTransfer 4 (ackAct p)) p e s

def maskAct (p : Port) (f : OpenFrame) (s : State) : State × LastResult :=
  (s.setPort p { s.port p with enabled := causeSetOf f }, .ok)

def execMask (p : Port) (e : FrameEvent) (s : State) : Result :=
  transfer (plainTransfer 4 (maskAct p)) p e s

/-! ## PORT RESET (R18, R32) -/

/-- A claim of port `p` that is not seized becomes FREE (R32). -/
def ClaimRecord.freeFor (p : Port) (c : ClaimRecord) : ClaimRecord :=
  if c.owner = some p ∧ c.seized = false then .free else c

/-- PORT RESET at its completion: slot, buffers, pending set, enable set and note flags of its own port, the frame error count,
and the port's ordinary claims. The ticket keeps its value. -/
def portResetAct (p : Port) (_ : OpenFrame) (s : State) : State × LastResult :=
  let t := s.setPort p { s.port p with slot := .empty, buffer := none, pending := 0, enabled := defaultEnable p, errors := 0 }
  ((t.setNotes p 0).withClaims (s.claims.map (ClaimRecord.freeFor p)), .ok)

def execPortReset (p : Port) (e : FrameEvent) (s : State) : Result :=
  transfer (plainTransfer 1 (portResetAct p)) p e s

/-! ## Unknown kinds (R2) -/

/-- A frame of an unknown kind does not act. The kind byte is any that R21 does not table; a frame whose first byte is a
transfer kind code is never one of these, and nothing happens (log 35). -/
def execUnknownTransfer (p : Port) (kind : Byte) (e : FrameEvent) (s : State) : Result :=
  if kindIsUnknown kind then transfer (plainTransfer 1 fun _ t => (t, .badTransfer)) p e s else .next s

/-! ## The arrival of an answer (R6) -/

/-- An answer with a ticket arrives at a port. -/
def State.arrive (s : State) (p : Port) (ticket : BitVec 32) (a : Answer) : State :=
  match (s.port p).slot with
  | .taken _ =>
    if ticket = (s.port p).ticket then
      match (s.port p).buffer with
      | none => s.enterBuffer p a
      | some _ => s.setPort p { s.port p with slot := .doneWaiting a }
    else s
  | _ => s

/-- The answer at place `which` among those in flight arrives; with none there, nothing arrives (log 15). -/
def execAnswerArrival (p : Port) (which : Nat) (s : State) : Result :=
  event (fun s =>
    match (s.port p).inFlight[which]? with
    | none => s
    | some (ticket, a) =>
      (s.setPort p { s.port p with inFlight := (s.port p).inFlight.eraseIdx which }).arrive p ticket a) s

end Sys2Proof.Machine
end

