-- ==== Sys2Proof/Machine/Power.lean ====
section
/-! DEFINITION. RESTART, power-on reset and the starts, the backup monitor and the loss of main power (chapter 12, with each
block's part of them from its own chapter). -/

namespace Sys2Proof.Machine

/-! ## What a RESTART and a warm start share -/

/-- A charge at a RESTART or warm start (R71, R72): an active one is HELD for `why`, a PLANING one RELEASED, and an uncertified
accrual is 0. -/
def Charge.restarted (why : HoldReason) (c : Charge) : Charge :=
  let d := if c.flags.htCertified then c else { c with htAccrual := 0 }
  match d.state with
  | .active ph => { d with state := .held ph why }
  | .planing => { d with state := .released, stats := { d.stats with inFlight := 0 } }
  | _ => d

def isHeld : ChargeState → Bool
  | .held _ _ => true
  | _ => false

/-- A kiln record at a RESTART or warm start, its charge as the same event leaves it (R99). -/
def Kiln.restarted (charge : Option Charge) (kl : Kiln) : Kiln :=
  { kl with
    report := none, age := 0, stale := false, accumulator := 0, offRun := 0, onRun := 0, deviation := .inBand,
    timer := match charge with
      | some c => isHeld c.state
      | none => false }

/-- The Charge Table and the kiln units (R71, R72, R99). -/
def State.restartCharges (s : State) (why : HoldReason) : State :=
  let t := s.withCharges { s.charges with entries := s.charges.entries.map (Charge.restarted why) }
  t.withKilns (t.kilns.map fun kl => kl.restarted (kl.link.bind t.charge))

/-- A LABEL_QUEUED pack returns to CLOSED (R169). -/
def Pack.unqueued (q : Pack) : Pack := if q.state = .labelQueued then { q with state := .closed } else q

def State.restartPacks (s : State) : State :=
  s.withPacks { s.packs with packs := s.packs.packs.map Pack.unqueued }

/-- The label engine emptied, its last-assigned serial kept (R185). -/
def LabelEngine.emptied (e : LabelEngine) : LabelEngine := { LabelEngine.cold with lastSerial := e.lastSerial }

/-- The pack builder's flag and the label engine, and the CLOSED packs that then enter the empty queue (R169, R185). -/
def State.restartLabel (s : State) (lbsy : Bool) : State :=
  ((s.withPacks { s.packs with blocked := false }).withLabel s.label.emptied).fillQueue lbsy

/-- The planer tracker, its sort map kept (R117, R141). -/
def State.restartTracker (s : State) (eye : Bool) : State :=
  s.withTracker { Tracker.cold eye with sortMap := s.tracker.sortMap }

/-- The twelve kilns in ascending number. -/
def allKilns : List KilnNo := [0, 1, 2, 3, 4, 5, 6, 7, 8, 9, 10, 11]

/-- The occupied kilns in ascending number, each with its charge id (R189). -/
def State.occupied (s : State) : List (KilnNo × Nat) :=
  allKilns.filterMap fun k => (s.kiln k).link.map fun id => (k, id)

/-- The RESTART records of some kilns (R189). -/
def State.restartRecords (s : State) (l : List (KilnNo × Nat)) : State :=
  l.foldl (fun t x => t.writeTrace x.1 x.2 .restart) s

/-- Every block but the ports and the claim table (R200, R199), in an order in which the records show the charges after the
change (R189, log 26). -/
def State.restartBlocks (s : State) (why : HoldReason) (eye lbsy : Bool) : State :=
  let t := (((s.restartCharges why).restartTracker eye).restartPacks).restartLabel lbsy
  t.restartRecords t.occupied

/-- A frame in progress is cut (R19, R20). -/
def PortUnit.cutFrame (u : PortUnit) : PortUnit := { u with frame := u.frame.map fun f => { f with cut := true } }

/-! ## RESTART (R200) -/

/-- A port unit at a RESTART (R19): RESTARTED pending; ticket and answers in flight kept. -/
def PortUnit.restarted (p : Port) (u : PortUnit) : PortUnit :=
  { u.cutFrame with
    slot := .empty, buffer := none, pending := restartedSet &&& defaultEnable p, enabled := defaultEnable p, notes := 0,
    errors := 0, last := .blank }

/-- A claim at a RESTART (R33): freed unless it is seized. -/
def ClaimRecord.restarted (c : ClaimRecord) : ClaimRecord := if c.seized then c else .free

/-- RESTART's own DONE answer, which has no body fields (R19, R200). -/
def restartAnswer (r : Request) : Answer := { kind := r.kind, tag := r.tag, verdict := .done [] }

/-- The effect of a RESTART taken at port `p` (R200): ports, claims, the answer in the port's buffer, then every other block. -/
def State.restarted (s : State) (p : Port) (r : Request) (eye lbsy : Bool) : State :=
  let t := (s.withPorts (s.ports.map PortUnit.restarted)).withClaims (s.claims.map ClaimRecord.restarted)
  (t.enterBuffer p (restartAnswer r)).restartBlocks .restart eye lbsy

def execRestart (p : Port) (eye lbsy : Bool) (s : State) : Result :=
  event (fun s =>
    match s.offered p 0x92 with
    | some r => s.restarted p r eye lbsy
    | none => s) s

/-! ## Starts (R199) -/

/-- Every frame in progress is cut and the bus is between cycles (R20, R199). -/
def State.quiet (s : State) : State :=
  (s.withPorts (s.ports.map fun _ u => u.cutFrame)).withLabel { s.label with bus := .rest }

def State.withPhase (s : State) (ph : PowerPhase) : State := s.withRetention { s.retention with phase := ph }

/-- PWRST# falls: a start begins, in any phase (R199, log 23). -/
def execPowerOnReset (s : State) : Result := .next (s.quiet.withPhase .starting)

/-- The ports at the completion of a start (R1, R20); a frame that is open stays cut (log 4). -/
def Ports.begun (u : Ports) : Ports :=
  u.map fun p x => { PortUnit.started p with frame := x.cutFrame.frame, sent := x.sent }

/-- A cold start that completes (R199): every block takes its cold-start values. -/
def State.coldStarted (s : State) (eye : Bool) : State :=
  { State.reset with ports := s.ports.begun, tracker := .cold eye, pending := s.pending }

/-- COLD_START: at the rise of PWRST# with the marker 0; a cut one has not set the marker (R199, log 17). -/
def execColdStart (eye cut : Bool) (s : State) : Result :=
  .next (if s.retention.phase = .starting ∧ s.retention.marker = false ∧ cut = false then s.coldStarted eye else s)

/-- A warm start that completes (R199): claims and ports as at any start, the other blocks from the retained state. -/
def State.warmStarted (s : State) (eye lbsy : Bool) : State :=
  (((s.withPorts s.ports.begun).withClaims .free).withRetention
    { s.retention with startKind := .warm, phase := .running }).restartBlocks .power eye lbsy

/-- A warm start that is cut (R199, log 17): what it has changed of the retained state stays; its ports have taken no values,
so a mark its records reached is not raised. DESIGN CHOICE: a cut start has not begun the head label job and has drawn no serial
for it, wherever it is cut; R199 does not say whether a cut start can come so far (log 17). -/
def State.warmCut (s : State) (charges packs : Bool) (records : Nat) : State :=
  let t := if charges then s.restartCharges .power else s
  let u := if charges then (t.restartRecords (t.occupied.take records)).withPorts s.ports else t
  if packs then u.restartPacks else u

/-- WARM_START: at the rise of PWRST# with the marker 1 (R199). -/
def execWarmStart (eye lbsy : Bool) (until_ : StartEnd) (s : State) : Result :=
  .next (if s.retention.phase = .starting ∧ s.retention.marker = true then
    match until_ with
    | .completes => s.warmStarted eye lbsy
    | .cut charges packs records => s.warmCut charges packs records
  else s)

/-! ## Supplies (R197, R198) -/

/-- The backup monitor trips: it clears the marker while main power is off and leaves it while main power is on (R198). -/
def execBackupMonitorTrip (s : State) : Result :=
  .next (if s.retention.phase = .off then s.withRetention { s.retention with marker := false } else s)

/-- Main power fails: every event taken stands, and a VBK that is low clears the marker (R197, R198, log 16). -/
def execMainPowerFail (vbkLow : Bool) (s : State) : Result :=
  .next (if s.retention.phase = .off then s
    else s.quiet.withRetention
      { s.retention with phase := .off, marker := s.retention.marker && !vbkLow })

end Sys2Proof.Machine
end

