-- ==== Sys2Proof/Machine/Dispatch.lean ====
section
/-! DEFINITION. The meaning of every command: one arm for each constructor of Instr, each one call of its meaning. -/

namespace Sys2Proof.Machine

def exec (i : Instr) (s : State) : Host.Outcome State Fault Refusal :=
  match i with
  | .post p f => Sys2Proof.Machine.execPost p f s
  | .withdraw p f => Sys2Proof.Machine.execWithdraw p f s
  | .fetch p f => Sys2Proof.Machine.execFetch p f s
  | .peek p f => Sys2Proof.Machine.execPeek p f s
  | .note p f => Sys2Proof.Machine.execNote p f s
  | .ack p f => Sys2Proof.Machine.execAck p f s
  | .mask p f => Sys2Proof.Machine.execMask p f s
  | .portReset p f => Sys2Proof.Machine.execPortReset p f s
  | .unknownTransfer p kind f => Sys2Proof.Machine.execUnknownTransfer p kind f s
  | .answerArrival p which => Sys2Proof.Machine.execAnswerArrival p which s
  | .claim p => Sys2Proof.Machine.execClaim p s
  | .release p => Sys2Proof.Machine.execRelease p s
  | .seize p => Sys2Proof.Machine.execSeize p s
  | .putSpecies p => Sys2Proof.Machine.execPutSpecies p s
  | .deleteSpecies p => Sys2Proof.Machine.execDeleteSpecies p s
  | .speciesQuery p => Sys2Proof.Machine.execSpeciesQuery p s
  | .putSchedule p => Sys2Proof.Machine.execPutSchedule p s
  | .deleteSchedule p => Sys2Proof.Machine.execDeleteSchedule p s
  | .scheduleQuery p => Sys2Proof.Machine.execScheduleQuery p s
  | .putGradeText p => Sys2Proof.Machine.execPutGradeText p s
  | .putLengthBands p => Sys2Proof.Machine.execPutLengthBands p s
  | .defineCharge p => Sys2Proof.Machine.execDefineCharge p s
  | .setSamples p => Sys2Proof.Machine.execSetSamples p s
  | .load p => Sys2Proof.Machine.execLoad p s
  | .unload p => Sys2Proof.Machine.execUnload p s
  | .retireCharge p => Sys2Proof.Machine.execRetireCharge p s
  | .chargeQuery p => Sys2Proof.Machine.execChargeQuery p s
  | .sampleWeights p => Sys2Proof.Machine.execSampleWeights p s
  | .kilnReport p => Sys2Proof.Machine.execKilnReport p s
  | .start p => Sys2Proof.Machine.execStart p s
  | .hold p => Sys2Proof.Machine.execHold p s
  | .resume p => Sys2Proof.Machine.execResume p s
  | .skipStep p => Sys2Proof.Machine.execSkipStep p s
  | .stop p => Sys2Proof.Machine.execStop p s
  | .kilnStatus p => Sys2Proof.Machine.execKilnStatus p s
  | .kilnMinuteExpiry k => Sys2Proof.Machine.execKilnMinuteExpiry k s
  | .traceRead p => Sys2Proof.Machine.execTraceRead p s
  | .setTraceMark p => Sys2Proof.Machine.execSetTraceMark p s
  | .setClock p => Sys2Proof.Machine.execSetClock p s
  | .millClockMinute => Sys2Proof.Machine.execMillClockMinute s
  | .openRun p => Sys2Proof.Machine.execOpenRun p s
  | .addSource p => Sys2Proof.Machine.execAddSource p s
  | .advanceSource p => Sys2Proof.Machine.execAdvanceSource p s
  | .closeRun p => Sys2Proof.Machine.execCloseRun p s
  | .abortRun p => Sys2Proof.Machine.execAbortRun p s
  | .boardGrade p lbsy => Sys2Proof.Machine.execBoardGrade p lbsy s
  | .putSortEntry p => Sys2Proof.Machine.execPutSortEntry p s
  | .removeSortEntry p => Sys2Proof.Machine.execRemoveSortEntry p s
  | .clearSortMap p => Sys2Proof.Machine.execClearSortMap p s
  | .runStatus p => Sys2Proof.Machine.execRunStatus p s
  | .eyeEdge => Sys2Proof.Machine.execEyeEdge s
  | .meterFrame b framingError => Sys2Proof.Machine.execMeterFrame b framingError s
  | .meterIdleTimeout => Sys2Proof.Machine.execMeterIdleTimeout s
  | .closeLot p => Sys2Proof.Machine.execCloseLot p s
  | .convertLot p => Sys2Proof.Machine.execConvertLot p s
  | .lotQuery p => Sys2Proof.Machine.execLotQuery p s
  | .setBinTarget p lbsy => Sys2Proof.Machine.execSetBinTarget p lbsy s
  | .closePack p lbsy => Sys2Proof.Machine.execClosePack p lbsy s
  | .releasePack p => Sys2Proof.Machine.execReleasePack p s
  | .packQuery p => Sys2Proof.Machine.execPackQuery p s
  | .reprint p lbsy => Sys2Proof.Machine.execReprint p lbsy s
  | .busCycleComplete lbsy ld => Sys2Proof.Machine.execBusCycleComplete lbsy ld s
  | .lbsyFall => Sys2Proof.Machine.execLbsyFall s
  | .printerTimeout => Sys2Proof.Machine.execPrinterTimeout s
  | .haltPrinter p => Sys2Proof.Machine.execHaltPrinter p s
  | .resumePrinter p lbsy => Sys2Proof.Machine.execResumePrinter p lbsy s
  | .printerStatus p => Sys2Proof.Machine.execPrinterStatus p s
  | .putParameter p => Sys2Proof.Machine.execPutParameter p s
  | .parameterQuery p => Sys2Proof.Machine.execParameterQuery p s
  | .restart p eye lbsy => Sys2Proof.Machine.execRestart p eye lbsy s
  | .powerOnReset => Sys2Proof.Machine.execPowerOnReset s
  | .coldStart eye cut => Sys2Proof.Machine.execColdStart eye cut s
  | .warmStart eye lbsy until_ => Sys2Proof.Machine.execWarmStart eye lbsy until_ s
  | .backupMonitorTrip => Sys2Proof.Machine.execBackupMonitorTrip s
  | .mainPowerFail vbkLow => Sys2Proof.Machine.execMainPowerFail vbkLow s
  | .meterByteReceived b framingError => Sys2Proof.Machine.execMeterByteReceived b framingError s
  | .eyeFilteredFall => Sys2Proof.Machine.execEyeFilteredFall s

end Sys2Proof.Machine
end

