-- ==== Sys2Proof/Safety.lean ====
section
/-! DEFINITION. The terms the statements use: a request that is offered, what a step may change, and the invariants of the
part. A safe run is one whose every state meets the invariants; no command ends in a fault (log 28). -/

namespace Sys2Proof.Machine

/-! ## Requests -/

/-- The part runs and port `p` holds the POSTED request `r` of kind `code` (R5, R6). -/
abbrev Offers (s : State) (p : Port) (code : Byte) (r : Request) : Prop :=
  s.retention.phase = .running ∧ (s.port p).slot = .posted r ∧ r.kind = code

/-- Port `p` owns the claim on a resource (R28). -/
abbrev Owns (s : State) (p : Port) (res : Resource) : Prop := (s.claim res).owner = some p

/-- The state after a DONE of request `r` at port `p`, with the body `b`, from the state `t` the block has made (R6, R9). -/
def State.done (t : State) (p : Port) (r : Request) (b : List Field) : State := t.handBack p r (.done b)

/-- The state after a REFUSED (R9, R10). -/
def State.refusedWith (s : State) (p : Port) (r : Request) (e : Reason) : State := s.handBack p r (.refused e)

/-- The port and the request kind code of a command that is a take (section 1.10), RESTART apart. -/
def takenBy : Instr → Option (Port × Byte)
  | .claim p => some (p, 0x01) | .release p => some (p, 0x02) | .seize p => some (p, 0x03)
  | .putSpecies p => some (p, 0x10) | .deleteSpecies p => some (p, 0x11) | .speciesQuery p => some (p, 0x12)
  | .putSchedule p => some (p, 0x13) | .deleteSchedule p => some (p, 0x14) | .scheduleQuery p => some (p, 0x15)
  | .putGradeText p => some (p, 0x16) | .putLengthBands p => some (p, 0x17)
  | .defineCharge p => some (p, 0x20) | .setSamples p => some (p, 0x21) | .load p => some (p, 0x22)
  | .unload p => some (p, 0x23) | .retireCharge p => some (p, 0x24) | .chargeQuery p => some (p, 0x25)
  | .sampleWeights p => some (p, 0x26)
  | .kilnReport p => some (p, 0x30) | .start p => some (p, 0x31) | .hold p => some (p, 0x32) | .resume p => some (p, 0x33)
  | .skipStep p => some (p, 0x34) | .stop p => some (p, 0x35) | .kilnStatus p => some (p, 0x36)
  | .openRun p => some (p, 0x40) | .addSource p => some (p, 0x41) | .advanceSource p => some (p, 0x42)
  | .closeRun p => some (p, 0x43) | .abortRun p => some (p, 0x44) | .boardGrade p _ => some (p, 0x45)
  | .putSortEntry p => some (p, 0x46) | .removeSortEntry p => some (p, 0x47) | .clearSortMap p => some (p, 0x48)
  | .runStatus p => some (p, 0x49)
  | .closeLot p => some (p, 0x50) | .convertLot p => some (p, 0x51) | .lotQuery p => some (p, 0x52)
  | .setBinTarget p _ => some (p, 0x60) | .closePack p _ => some (p, 0x61) | .releasePack p => some (p, 0x62)
  | .packQuery p => some (p, 0x63)
  | .reprint p _ => some (p, 0x70) | .haltPrinter p => some (p, 0x71) | .resumePrinter p _ => some (p, 0x72)
  | .printerStatus p => some (p, 0x73)
  | .traceRead p => some (p, 0x80) | .setTraceMark p => some (p, 0x81) | .setClock p => some (p, 0x82)
  | .putParameter p => some (p, 0x90) | .parameterQuery p => some (p, 0x91)
  | _ => none

/-- The resource whose claim a gated command needs, where its kind alone fixes it (R23, R28). -/
def gatedBy : Instr → Option Resource
  | .openRun _ | .addSource _ | .advanceSource _ | .closeRun _ | .abortRun _ | .putSortEntry _ | .removeSortEntry _
  | .clearSortMap _ | .setBinTarget _ _ => some .planer
  | .putSpecies _ | .deleteSpecies _ | .putSchedule _ | .deleteSchedule _ | .putGradeText _ | .putLengthBands _
  | .putParameter _ => some .library
  | .reprint _ _ | .haltPrinter _ | .resumePrinter _ _ => some .printer
  | _ => none

/-- The kiln commands that need the claim of the kiln in field 1 (R23, R28). -/
def gatedByKiln : Instr → Bool
  | .load _ | .unload _ | .start _ | .hold _ | .resume _ | .skipStep _ | .stop _ => true
  | _ => false

/-! ## What a request's body carries -/

/-- The form of the next field of a body, or of a dry-bulb and its depression, which are two fields in three bytes (R22, R36). -/
inductive FieldForm
  | num (width : Nat) (accepts : Nat → Bool)
  | text (least most : Nat)
  | pair (checked : Bool)

/-- The form of the field that follows fields of the values given (a text's value is its length), none after the last field. -/
abbrev Layout := List Nat → Option FieldForm

/-- The index of the first bad field of a body: absent, cut short, out of range or breaking a rule of its request (R9, R22, R36);
`seen` are the values of the fields before it, and no more than `fuel` forms are tried. -/
def firstBad (layout : Layout) : (fuel : Nat) → (seen : List Nat) → (body : List Byte) → Option Nat
  | 0, _, _ => none
  | fuel + 1, seen, body =>
    match layout seen with
    | none => none
    | some (.num w accepts) =>
      if w ≤ body.length ∧ accepts (beNat (body.take w)) = true then
        firstBad layout fuel (seen ++ [beNat (body.take w)]) (body.drop w)
      else some (seen.length + 1)
    | some (.text least most) =>
      match body with
      | [] => some (seen.length + 1)
      | n :: rest =>
        if least ≤ n.toNat ∧ n.toNat ≤ most ∧ n.toNat ≤ rest.length ∧
            ∀ ch ∈ rest.take n.toNat, 0x20 ≤ ch.toNat ∧ ch.toNat ≤ 0x7E then
          firstBad layout fuel (seen ++ [n.toNat]) (rest.drop n.toNat)
        else some (seen.length + 1)
    | some (.pair checked) =>
      let dry := beNat (body.take 3) / 4096
      let depression := beNat (body.take 3) % 4096
      if body.length < 3 ∨ (checked = true ∧ ¬(200 ≤ dry ∧ dry ≤ 1100)) then some (seen.length + 1)
      else if checked = true ∧ 400 < depression then some (seen.length + 2)
      else firstBad layout fuel (seen ++ [dry, depression]) (body.drop 3)

/-- A number of `w` bytes from `lo` to `hi`. -/
def ranged (w lo hi : Nat) : FieldForm := .num w fun v => decide (lo ≤ v ∧ v ≤ hi)

/-- A body of so many fields, whatever their values. -/
def fixed (forms : List FieldForm) : Layout := fun seen => forms[seen.length]?

/-- PUT SCHEDULE (R41 to R43): fields 6 to 9 and 11 to 13 are checked where field 5 or 10 is 1; each step's fields are those of
the kind in field 2; no threshold may exceed the one before it. -/
def scheduleLayout : Layout := fun seen =>
  let n := seen.length
  let equalize := seen.getD 4 0 == 1
  let conditioning := seen.getD 9 0 == 1
  if n = 0 then some (ranged 1 1 16) else if n = 1 then some (ranged 1 1 2) else if n = 2 then some (ranged 2 40 300)
  else if n = 3 then some (ranged 1 0 200) else if n = 4 then some (ranged 1 0 1) else if n = 5 then some (.pair equalize)
  else if n = 7 then some (if equalize then ranged 1 0 100 else .num 1 fun _ => true)
  else if n = 8 then some (if equalize then ranged 2 1 9999 else .num 2 fun _ => true)
  else if n = 9 then some (ranged 1 0 1) else if n = 10 then some (.pair conditioning)
  else if n = 12 then some (if conditioning then ranged 2 1 9999 else .num 2 fun _ => true)
  else if n = 13 then some (ranged 2 0 800) else if n = 14 then some (ranged 2 1 9999)
  else if n = 15 then some (ranged 1 1 24)
  else if seen.getD 1 0 = 1 then
    if 5 * seen.getD 15 0 ≤ n - 16 then none
    else if (n - 16) % 5 = 0 then some (.pair true)
    else if (n - 16) % 5 = 2 then some (ranged 2 0 (if n - 16 < 5 then 2000 else seen.getD (n - 5) 0))
    else some (ranged 2 0 9999)
  else
    if 3 * seen.getD 15 0 ≤ n - 16 then none
    else if (n - 16) % 3 = 0 then some (.pair true)
    else some (ranged 2 1 9999)

/-- PUT LENGTH BANDS (R50): no bands or eight, each upper bound above the one before it. -/
def bandsLayout : Layout := fun seen =>
  let n := seen.length
  if n = 0 then some (.num 1 fun v => v == 0 || v == 8)
  else if 2 * seen.getD 0 0 < n then none
  else if n % 2 = 1 then
    some (.num 2 fun v => decide (500 ≤ v ∧ v ≤ 7500) && (n == 1 || decide (seen.getD (n - 2) 0 < v)))
  else some (.text 1 4)

/-- The days of a month (R175, R193). -/
def daysIn (year month : Nat) : Nat :=
  if month ∈ [4, 6, 9, 11] then 30
  else if month = 2 then (if (year % 4 = 0 ∧ year % 100 ≠ 0) ∨ year % 400 = 0 then 29 else 28)
  else 31

/-- The ranges of parameters 1 to 17, in order (R194). -/
def parameterRange (n : Nat) : Nat × Nat :=
  [(10, 100), (5, 240), (1, 60), (2, 60), (500, 800), (1, 240), (5, 240), (0, 100), (0, 150), (1, 2), (10, 1000), (10, 1000),
    (4, 64), (100, 10000), (1, 15), (1, 15), (1, 15)].getD (n - 1) (0, 0)

/-- The body of each request kind by its code (section 1.10 and each request's own rule); a kind not listed carries no fields. -/
def layoutOf (code : Byte) : Layout :=
  let id := ranged 2 1 65535
  let kiln := ranged 1 1 12
  let free (w : Nat) : FieldForm := .num w fun _ => true
  let sortKey := [ranged 1 1 8, ranged 2 50 400, ranged 1 1 8]
  match code.toNat with
  | 0x01 | 0x02 | 0x03 => fixed [ranged 1 1 15]
  | 0x10 => fixed [ranged 1 1 32, .text 1 8, ranged 2 512 2048, .num 1 fun v => decide (v ≤ 100 ∨ 156 ≤ v), ranged 1 0 40]
  | 0x11 | 0x12 => fixed [ranged 1 1 32]
  | 0x13 => scheduleLayout
  | 0x14 | 0x15 => fixed [ranged 1 1 16]
  | 0x16 => fixed [ranged 1 1 8, .text 0 6]
  | 0x17 => bandsLayout
  | 0x20 => fixed [ranged 1 1 32, ranged 1 10 150, ranged 4 1 2000000000]
  | 0x21 => fun seen =>
    if seen.length = 0 then some id else if seen.length = 1 then some (ranged 1 2 8)
    else if 2 + 2 * seen.getD 1 0 ≤ seen.length then none
    else some (if seen.length % 2 = 0 then ranged 2 100 50000 else ranged 2 50 2000)
  | 0x22 => fixed [kiln, id, ranged 1 1 16]
  | 0x23 => fixed [kiln, id]
  | 0x24 => fixed [id]
  | 0x25 => fixed [free 2]
  | 0x26 => fun seen =>
    if seen.length = 0 then some id else if seen.length = 1 then some (ranged 1 1 8)
    else if 2 + seen.getD 1 0 ≤ seen.length then none else some (ranged 2 0 50000)
  | 0x30 => fun seen =>
    if seen.length = 0 then some kiln else if seen.length < 3 then some (free 2)
    else if seen.length = 3 then some (ranged 1 0 4)
    else if 4 + seen.getD 3 0 ≤ seen.length then none else some (free 2)
  | 0x31 | 0x32 | 0x33 | 0x34 | 0x35 | 0x36 => fixed [kiln]
  | 0x40 => fixed [id, .num 1 fun v => decide (v ≤ 100 ∨ v = 255), .num 1 fun v => decide (v ≤ 150 ∨ v = 255), ranged 1 0 2]
  | 0x41 => fixed [id]
  | 0x45 => fixed [id, ranged 1 0 8, ranged 2 50 400, ranged 2 500 65535]
  | 0x46 => fixed (sortKey ++ [ranged 1 1 20])
  | 0x47 => fixed sortKey
  | 0x49 => fun seen =>
    if seen.length = 0 then some (ranged 1 0 3)
    else if seen.length = 1 ∧ seen.getD 0 0 ∈ [1, 2] then some (ranged 1 1 48) else none
  | 0x50 | 0x51 => fixed [ranged 1 1 255]
  | 0x52 => fixed [free 1]
  | 0x60 => fun seen =>
    if seen.length = 0 then some (ranged 1 1 20) else if seen.length = 1 then some (ranged 1 1 2)
    else if seen.length = 2 then some (ranged 4 1 (if seen.getD 1 0 = 1 then 2000 else 10000000)) else none
  | 0x61 => fixed [ranged 1 1 20]
  | 0x62 => fixed [id]
  | 0x63 => fun seen =>
    if seen.length = 0 then some (ranged 1 0 2)
    else if seen.length = 1 ∧ seen.getD 0 0 = 0 then some id else none
  | 0x70 => fixed [id]
  | 0x80 => fixed [ranged 4 1 4294967295, ranged 1 1 8]
  | 0x81 => fixed [free 4]
  | 0x82 => fun seen =>
    if seen.length = 2 then some (ranged 1 1 (daysIn (seen.getD 0 0) (seen.getD 1 0)))
    else fixed [ranged 2 2000 2199, ranged 1 1 12, free 1, ranged 1 0 23, ranged 1 0 59] seen
  | 0x90 => fun seen =>
    if seen.length = 0 then some (ranged 1 1 18)
    else if seen.length = 1 then
      some (if seen.getD 0 0 = 18 then .text 0 16
        else ranged 2 (parameterRange (seen.getD 0 0)).1 (parameterRange (seen.getD 0 0)).2)
    else none
  | 0x91 => fixed [ranged 1 0 18]
  | _ => fixed []

/-! ## Takes of kiln and planer requests -/

/-- Kiln `k` holds the charge `c`, loaded under the present schedule `x`. -/
structure Holds (s : State) (k : KilnNo) (c : Charge) (x : Schedule) : Prop where
  link : (s.kiln k).link = some c.id
  charge : s.charge c.id = some c
  schedule : ∃ n, c.schedule = some n ∧ s.schedule n = some x

/-- The body of the answer to a kiln command (section 5.9). -/
def kilnBody (k : KilnNo) (id : Nat) (state : StateName) (kl : Kiln) : List Field :=
  [.num 1 (k.val + 1), .num 2 id, .sym (.state state), .num 1 kl.step, .num 2 kl.dry, .num 2 kl.wet]

/-- A board `b` of run `n` leaves queue B with the counters `counters` (R120, R125, R135): its charge has one board less in
flight and is PLANED when it is unlisted with none, and a DRAINING run with both queues empty ends. -/
def State.leaves (u : State) (n : Run) (b : Board) (counters : RunCounters) : State :=
  let m := { n with queueB := n.queueB.eraseP (fun x => x.seq == b.seq), counters := counters }
  let charges := { u.charges with
    entries := keyModify Charge.id b.charge (fun c =>
      let d := { c with stats := { c.stats with inFlight := c.stats.inFlight - 1 } }
      if d.state = .planing ∧ d.stats.inFlight = 0 ∧ b.charge ∉ n.sources then { d with state := .planed } else d)
      u.charges.entries }
  if n.state = .draining ∧ n.queueA = [] ∧ m.queueB = [] then
    { u with
      charges := charges
      tracker := { u.tracker with run := none, summary := some ⟨n.number, .closed, counters⟩ } }
  else { u with charges := charges, tracker := { u.tracker with run := some m } }

/-- The oldest board `o` of a full queue B is dispatched as lost, `later` are the boards behind it (R120, R127, R130): the lost
counter, the sticky flag and TRACK_OVERRUN; its charge has one board less in flight and is PLANED when it is unlisted with
none. -/
def State.loses (s : State) (n : Run) (o : Board) (later : List Board) : State :=
  let run : Run := { n with
    queueB := later, bOverrun := true, counters := { n.counters with lost := min 4294967295 (n.counters.lost + 1) } }
  let left (c : Charge) : Charge :=
    let d : Charge := { c with stats := { c.stats with inFlight := c.stats.inFlight - 1 } }
    if d.state = .planing ∧ d.stats.inFlight = 0 ∧ o.charge ∉ n.sources then { d with state := .planed } else d
  let t : State := { s with
    tracker := { s.tracker with run := some run }
    charges := { s.charges with entries := keyModify Charge.id o.charge left s.charges.entries } }
  t.raiseAll .trackOverrun

/-- A label cycle of kind `c` begins, or its wait, by the level of LBSY, with the parameters as they stand (R177, R178). -/
def State.busFor (s : State) (lbsy : Bool) (c : CycleKind) : Bus :=
  if lbsy then .waiting (s.param 14) else .cycle ⟨c, s.param 15, s.param 16, s.param 17⟩

/-! ## The trace log -/

/-- The log stands clear of a wrap for `n` writes: they empty it of no older record and do not wrap it (R188). -/
structure TraceLog.Clear (g : TraceLog) (n : Nat) : Prop where
  ring : g.ring.length ≤ 2048
  next : 2 ≤ g.next ∨ (g.next = 1 ∧ g.ring = [])
  room : g.next + n ≤ 4294967295

/-- Whether `n` records, written now, reach a present trace mark (R191). -/
def TraceLog.markReached (g : TraceLog) (n : Nat) : Bool :=
  match g.mark with
  | some m => decide (0 < n ∧ m < g.next + n)
  | none => false

/-- A log that is clear of a wrap after the records `l`, in their order: they receive the next sequences, the newest 2048 are
held, and a mark that one of them reaches is absent (R188, R191). -/
def TraceLog.after (g : TraceLog) (l : List TraceRecord) : TraceLog :=
  let held := g.ring ++ l.mapIdx fun i x => { x with seq := g.next + i }
  { ring := held.drop (held.length - 2048)
    next := g.next + l.length
    mark := if g.markReached l.length then none else g.mark }

/-- The contents of a record of kiln `k` about the charge `id`, which holds the controlling MC given, from the kiln record `u` and
the charge state's name `st`; its sequence comes from the log (R187). -/
def recordOf (clock : MillClock) (k : KilnNo) (id : Nat) (controlling : Option Nat) (u : Kiln) (kind : TraceKind)
    (st : StateName) : TraceRecord :=
  let actual (channel : KilnReport → Actual) : Option Int :=
    match u.report with
    | some r => if u.stale = false ∧ (channel r).valid = true then some (channel r).value else none
    | none => none
  { seq := 0, time := if clock.isSet then some clock.minutes else none, kiln := k, charge := id, kind := kind, state := st
    step := u.step, dry := u.dry, wet := u.wet, dryActual := actual KilnReport.dry, wetActual := actual KilnReport.wet
    controlling := controlling
    minCore := match u.report with
      | some r => if u.stale = false then r.cores.min? else none
      | none => none }

/-- The alerts `causes` are raised at all three ports, with TRACE_MARK where `n` records reach the mark (R13, R191). -/
def Raises (s t : State) (causes : BitVec 24) (n : Nat) : Prop :=
  ∀ q, (t.port q).pending = (s.port q).pending |||
    ((s.port q).enabled &&& (causes ||| if s.trace.markReached n then 0x010000 else 0))

/-! ## RESTART and the starts -/

/-- What a RESTART and a warm start leave of the charges and the kiln records (R71, R72, R99): active charges HELD for `why`,
PLANING ones RELEASED, uncertified accruals 0, and the volatile items of every kiln cleared. -/
structure RestartedCharges (s t : State) (why : HoldReason) : Prop where
  charges : t.charges = { s.charges with entries := s.charges.entries.map fun (c : Charge) =>
    let d := if c.flags.htCertified then c else { c with htAccrual := 0 }
    match d.state with
    | .active ph => { d with state := .held ph why }
    | .planing => { d with state := .released, stats := { d.stats with inFlight := 0 } }
    | _ => d }
  kilns : ∀ k, ∃ timer, (timer = true ↔ ∃ c ph h, t.kilnCharge k = some c ∧ c.state = .held ph h) ∧
    t.kiln k = { s.kiln k with
      report := none, age := 0, stale := false, accumulator := 0, offRun := 0, onRun := 0, deviation := .inBand
      timer := timer }

/-- The RESTART records of the occupied kilns in ascending number, each of the kiln and its charge as they stand in `t`, where the
changes of R99 have been made (R189). -/
def State.restartList (t : State) : List TraceRecord :=
  (List.finRange 12).filterMap fun k => (t.kiln k).link.map fun id =>
    recordOf t.clock k id ((t.charge id).bind Charge.controlling) (t.kiln k) .restart (t.kilnState k)

/-- What a RESTART and a warm start that completes leave of every block but the ports, the claim table and the retention domain
(R71, R72, R99, R117, R141, R169, R185, R189): the planer tracker cleared but for its sort map, the CLOSED packs queued again, and
one RESTART record for each occupied kiln, which shows its charge after the change. -/
structure RestartedBlocks (s t : State) (why : HoldReason) (eye lbsy : Bool) : Prop where
  charges : RestartedCharges s t why
  tracker : t.tracker = { s.tracker with
    run := none, lastRun := 0, summary := none, stray := 0, eye := eye, receiver := [] }
  label : ∃ u : State, u = State.fillQueue { s with
      charges := t.charges
      packs := { s.packs with
        blocked := false
        packs := s.packs.packs.map fun (q : Pack) => if q.state = .labelQueued then { q with state := .closed } else q }
      label := { LabelEngine.cold with lastSerial := s.label.lastSerial } } lbsy ∧
    t.packs = u.packs ∧ t.label = u.label
  trace : s.trace.Clear 12 → t.trace = s.trace.after t.restartList
  rest : t.library = s.library ∧ t.lots = s.lots ∧ t.clock = s.clock ∧ t.pending = s.pending

/-- The pending sets after a RESTART or a warm start, under the default enable sets (R19, R20, R189): RESTARTED everywhere, and
TRACE_MARK at Y where the RESTART records reached the mark. -/
def RestartedPending (s t : State) : Prop :=
  (∀ q, (t.port q).pending = 0x040000 ∨ (t.port q).pending = 0x050000) ∧
  (s.trace.Clear 12 → ∀ q, (t.port q).pending =
    if q = .Y ∧ s.trace.markReached t.restartList.length = true then 0x050000 else 0x040000)

/-! ## Transfers -/

/-- The part runs and no frame is in progress at port `p`. -/
abbrev Quiet (s : State) (p : Port) : Prop := s.retention.phase = .running ∧ (s.port p).frame = none

/-- What the part sends in a whole frame of `n` bytes after the kind byte: the status byte, then the reply, then zeros (R2, R3). -/
def sentBytes (status : Byte) (reply : List Byte) (n : Nat) : List Byte :=
  status :: (List.range n).map fun i => reply.getD i 0

/-- The state after a whole frame at port `p` that carried the bytes `bs` after its kind byte: the unit `u` with the frame
over, what was sent, and the last result. -/
def State.framed (s : State) (p : Port) (bs reply : List Byte) (u : PortUnit) (last : LastResult) : State :=
  s.setPort p { u with frame := none, sent := sentBytes (s.statusByte p) reply bs.length, last := last }

/-- A transfer command of port `p`, by its frame event. -/
def isTransfer (p : Port) (c : FrameEvent → Instr) : Prop :=
  c = .post p ∨ c = .withdraw p ∨ c = .fetch p ∨ c = .peek p ∨ c = .note p ∨ c = .ack p ∨ c = .mask p ∨ c = .portReset p ∨
    ∃ kind, c = .unknownTransfer p kind

/-- The frame commands of port `p` that R2 makes frames of, with what the part sends after the status byte, by the copy that was
taken at the kind byte (R8, R11, R21). -/
def Sends (p : Port) (c : FrameEvent → Instr) (reply : FrameCopy → List Byte) : Prop :=
  (c = .fetch p ∧ reply = fun y => match y.buffer with | some a => BitVec.ofNat 8 a.bytes.length :: a.bytes | none => [0]) ∨
  (c = .peek p ∧ reply = FrameCopy.status) ∨
  ((c = .post p ∨ c = .withdraw p ∨ c = .note p ∨ c = .ack p ∨ c = .mask p ∨ c = .portReset p ∨
    ∃ kind, kindIsUnknown kind = true ∧ c = .unknownTransfer p kind) ∧ reply = fun _ => [])

/-- The frame at port `p` that an event of a frame belongs to: the one in progress, or one that the event opens, whose status
byte is the port's as it stands; one that opens before a start completes sends 0x00 and is cut (R3, R20, log 4). -/
def State.openFrame (s : State) (p : Port) : OpenFrame :=
  match (s.port p).frame with
  | some f => f
  | none =>
    { status := if s.retention.phase = .running then s.statusByte p else 0, copy := none, received := [], sent := []
      cut := decide (s.retention.phase ≠ .running) }

/-- The copy a frame is built from: the one it holds, or what stands when the kind byte becomes complete (R8, R11). -/
def State.copyFor (s : State) (p : Port) (f : OpenFrame) : FrameCopy :=
  f.copy.getD { buffer := (s.port p).buffer, status := s.statusRecord p }

/-- What the part has sent in a frame after `n` further bytes: the status byte and then the reply, 0x00 beyond it, and 0x00
for every byte of a cut frame (R2, R3, R19, R20). -/
def OpenFrame.sentAfter (f : OpenFrame) (reply : List Byte) (n : Nat) : List Byte :=
  (if f.copy.isSome then f.sent else [if f.cut then 0 else f.status]) ++
    (List.range n).map fun i => if f.cut then 0 else reply.getD (f.received.length + i) 0

/-! ## Which commands may change a block -/

/-- The claim table (R23 to R34). -/
def changesClaims : Instr → Bool
  | .claim _ | .release _ | .seize _ | .portReset _ _ | .restart _ _ _ | .coldStart _ _ | .warmStart _ _ _ => true
  | _ => false

/-- The library, its in-use counts among it (R35, R46, R194). -/
def changesLibrary : Instr → Bool
  | .putSpecies _ | .deleteSpecies _ | .putSchedule _ | .deleteSchedule _ | .putGradeText _ | .putLengthBands _
  | .putParameter _ | .load _ | .unload _ | .skipStep _ | .kilnMinuteExpiry _ | .coldStart _ _ => true
  | _ => false

/-- The kiln records (R74, R75, R98 to R100). -/
def changesKilns : Instr → Bool
  | .load _ | .unload _ | .kilnReport _ | .start _ | .hold _ | .resume _ | .skipStep _ | .stop _ | .kilnMinuteExpiry _
  | .restart _ _ _ | .coldStart _ _ | .warmStart _ _ _ => true
  | _ => false

/-- The Charge Table (chapter 4, and the blocks that own a charge's present work). -/
def changesCharges : Instr → Bool
  | .defineCharge _ | .setSamples _ | .sampleWeights _ | .load _ | .unload _ | .retireCharge _ | .start _ | .hold _
  | .resume _ | .skipStep _ | .stop _ | .kilnMinuteExpiry _ | .openRun _ | .addSource _ | .advanceSource _ | .closeRun _
  | .abortRun _ | .boardGrade _ _ | .eyeEdge | .meterFrame _ _ | .meterIdleTimeout | .convertLot _ | .releasePack _
  | .restart _ _ _ | .coldStart _ _ | .warmStart _ _ _ => true
  | _ => false

/-- The planer tracker (R117, R141). -/
def changesTracker : Instr → Bool
  | .openRun _ | .addSource _ | .advanceSource _ | .closeRun _ | .abortRun _ | .boardGrade _ _ | .putSortEntry _
  | .removeSortEntry _ | .clearSortMap _ | .runStatus _ | .eyeEdge | .eyeFilteredFall | .meterFrame _ _
  | .meterByteReceived _ _ | .meterIdleTimeout | .restart _ _ _ | .coldStart _ _ | .warmStart _ _ _ => true
  | _ => false

/-- The redry lot table (R142 to R151). -/
def changesLots : Instr → Bool
  | .boardGrade _ _ | .closeLot _ | .convertLot _ | .coldStart _ _ => true
  | _ => false

/-- The pack builder (R152 to R170). -/
def changesPacks : Instr → Bool
  | .boardGrade _ _ | .setBinTarget _ _ | .closePack _ _ | .releasePack _ | .busCycleComplete _ _ | .restart _ _ _
  | .coldStart _ _ | .warmStart _ _ _ => true
  | _ => false

/-- The label engine (R171 to R185), its bus among it. -/
def changesLabel : Instr → Bool
  | .boardGrade _ _ | .setBinTarget _ _ | .closePack _ _ | .reprint _ _ | .busCycleComplete _ _ | .lbsyFall
  | .printerTimeout | .haltPrinter _ | .resumePrinter _ _ | .restart _ _ _ | .powerOnReset | .coldStart _ _
  | .warmStart _ _ _ | .mainPowerFail _ => true
  | _ => false

/-- The trace log (R186 to R191). -/
def changesTrace : Instr → Bool
  | .load _ | .unload _ | .kilnReport _ | .start _ | .hold _ | .resume _ | .skipStep _ | .stop _ | .kilnMinuteExpiry _
  | .setTraceMark _ | .restart _ _ _ | .coldStart _ _ | .warmStart _ _ _ => true
  | _ => false

/-- The mill clock (R192, R193). -/
def changesClock : Instr → Bool
  | .setClock _ | .millClockMinute | .coldStart _ _ => true
  | _ => false

/-- The retained-valid marker, the start kind and the power phase (R198, R199). -/
def changesRetention : Instr → Bool
  | .powerOnReset | .coldStart _ _ | .warmStart _ _ _ | .backupMonitorTrip | .mainPowerFail _ => true
  | _ => false

/-- The commands that reset every port unit at once (R19, R20). -/
def resetsPorts : Instr → Bool
  | .restart _ _ _ | .powerOnReset | .coldStart _ _ | .warmStart _ _ _ | .mainPowerFail _ => true
  | _ => false

/-- The port a command is about, if it is about one. -/
def portOf : Instr → Option Port
  | .post p _ | .withdraw p _ | .fetch p _ | .peek p _ | .note p _ | .ack p _ | .mask p _ | .portReset p _
  | .unknownTransfer p _ _ | .answerArrival p _ => some p
  | c => (takenBy c).map Prod.fst

/-! ## Invariants -/

/-- Every step keeps an invariant. -/
def StepKeeps (Inv : State → Prop) : Prop := ∀ s t : State, Inv s → step s = .next t → Inv t

/-- The seized flag is 1 only when the owner is Y (R23). -/
def ClaimsOk (s : State) : Prop := ∀ res, (s.claim res).seized = true → (s.claim res).owner = some .Y

/-- Bits 19 to 23 of every pending set and enable set are 0 (R14, R21). -/
def CausesOk (s : State) : Prop :=
  ∀ p, (s.port p).pending &&& causeBits = (s.port p).pending ∧ (s.port p).enabled &&& causeBits = (s.port p).enabled

/-- A staged answer stands only behind an answer in the buffer (R6). -/
def SlotsOk (s : State) : Prop := ∀ p, (s.port p).slot.hasStaged = true → (s.port p).buffer.isSome = true

/-- The boards and counters of a run stay within what R118 gives. -/
def RunCapacities (n : Run) : Prop :=
  n.queueA.length ≤ 16 ∧ n.queueB.length ≤ 48 ∧ n.sources.length ≤ 3 ∧ n.history.length ≤ 16

/-- Every table stays within its capacity and in key order (R52, R118, R137, R142, R154, R171, R186). -/
structure CapacitiesOk (s : State) : Prop where
  charges : s.charges.entries.length ≤ 32 ∧ Rising Charge.id s.charges.entries
  lots : s.lots.lots.length ≤ 4 ∧ Rising Lot.number s.lots.lots
  packs : s.packs.packs.length ≤ 64 ∧ Rising Pack.id s.packs.packs
  labelQueue : s.label.queue.length ≤ 8
  ring : s.trace.ring.length ≤ 2048
  sortMap : s.tracker.sortMap.length ≤ 48 ∧ Rising SortEntry.key s.tracker.sortMap
  receiver : s.tracker.receiver.length ≤ 4
  run : ∀ n, s.tracker.run = some n → RunCapacities n

/-- The targets a schedule can put in force lie within a setpoint's range (R41, R42). -/
def TargetsOk (x : Schedule) : Prop :=
  (∀ n t, x.steps.target n = some t → t.dry ≤ 1100) ∧ ∀ ph t, x.phaseTarget ph = some t → t.dry ≤ 1100

/-- For each kiln, wet setpoint ≤ dry setpoint ≤ 1100, and its target lies in range, as every schedule's do (R74). -/
structure SetpointsOk (s : State) : Prop where
  setpoints : ∀ k, (s.kiln k).wet ≤ (s.kiln k).dry ∧ (s.kiln k).dry ≤ 1100
  target : ∀ k t, (s.kiln k).target = some t → t.dry ≤ 1100
  schedules : ∀ x ∈ s.library.schedules, TargetsOk x

/-- The right side of the equation of R120. -/
def Run.accounted (n : Run) : Nat :=
  n.queueA.length + n.queueB.length + n.counters.packed + n.counters.redry + n.counters.rejected + n.counters.lost

/-- While a run exists and boards in stands below 4,294,967,295, boards in equals what is accounted for (R120). -/
def BoardsOk (s : State) : Prop :=
  ∀ n, s.tracker.run = some n → n.counters.boardsIn < 4294967295 → n.counters.boardsIn = n.accounted

/-- Contributors are listed once each, and their pieces and the other pieces make up the whole (R142, R155). -/
def PiecesOk (cs : List Contributor) (other pieces : Nat) : Prop :=
  (cs.map Contributor.charge).Nodup ∧ cs.length ≤ 4 ∧ pieces = (cs.map Contributor.pieces).sum + other

/-- From the fall of PWRST# or the loss of main power until a start completes, every open frame is cut (R20, log 4). -/
structure FramesOk (s : State) : Prop where
  cut : s.retention.phase ≠ .running → ∀ p f, (s.port p).frame = some f → f.cut = true

/-- Every pack record and redry lot adds up, and the metered and unmetered boards of a pack are its pieces (R142, R155). -/
structure RecordsOk (s : State) : Prop where
  packs : ∀ q ∈ s.packs.packs, PiecesOk q.contributors q.other q.pieces ∧ q.metered + q.unmetered = q.pieces
  lots : ∀ x ∈ s.lots.lots, PiecesOk x.contributors x.other x.pieces

/-- The items of the label engine stand in the states R171 gives them to, and a job is in progress while it works. -/
structure LabelOk (s : State) : Prop where
  halt : s.label.halt.isSome = true ↔ s.label.state = .halted
  field : s.label.field.isSome = true ↔ s.label.state = .sending
  pending : s.label.haltPending = true → s.label.state = .sending ∨ s.label.state = .verifying
  job : s.label.state = .sending ∨ s.label.state = .verifying → s.label.queue ≠ []
  empty : s.label.state = .idle → s.label.queue = []
  idle : s.label.state = .idle ∨ s.label.state = .halted → s.label.bus = .rest

/-- The trace ring holds consecutive sequences, its newest the next sequence less one, save after a wrap (R186, R188). -/
structure TraceOk (s : State) : Prop where
  consecutive : s.trace.ring.IsChain fun x y => x.seq + 1 = y.seq
  newest : ∀ x, s.trace.ring.getLast? = some x → x.seq = if s.trace.next = 1 then 4294967295 else s.trace.next - 1
  next : 1 ≤ s.trace.next ∧ s.trace.next ≤ 4294967295

/-- The states in which a charge holds its schedule in use (R46). -/
def usesSchedule : ChargeState → Bool
  | .loaded | .active _ | .held _ _ => true
  | _ => false

/-- How many charges use schedule `n` (R46). -/
def State.users (s : State) (n : Nat) : Nat :=
  (s.charges.entries.filter fun c => usesSchedule c.state && c.schedule == some n).length

/-- Every in-use count equals the number of charges that use the schedule (R46). -/
structure InUseOk (s : State) : Prop where
  counts : ∀ n, 1 ≤ n → n ≤ 16 → s.inUse n = s.users n
  numbers : ∀ c ∈ s.charges.entries, ∀ n, c.schedule = some n → 1 ≤ n ∧ n ≤ 16
  named : ∀ c ∈ s.charges.entries, usesSchedule c.state = true → c.schedule.isSome = true
  keys : s.charges.entries.length ≤ 32 ∧ Rising Charge.id s.charges.entries
  library : ∀ x ∈ s.library.schedules, 1 ≤ x.number ∧ x.number ≤ 16

/-- The charges a record lists are those of its contributors (R66). -/
def listedIn (cs : List Contributor) (id : Nat) : Bool := decide (id ∈ cs.map Contributor.charge)

/-- How many pack records and redry lots list charge `id` (R66). -/
def State.listings (s : State) (id : Nat) : Nat :=
  (s.packs.packs.filter fun q => listedIn q.contributors id).length +
    (s.lots.lots.filter fun x => listedIn x.contributors id).length

/-- The boards of a charge that stand in the queues of the run in progress (R64, R120). -/
def State.flying (s : State) (id : Nat) : Nat :=
  match s.tracker.run with
  | some n => ((n.queueA ++ n.queueB).filter fun b => b.charge == id).length
  | none => 0

/-- Every charge's reference count equals the number of pack records and redry lots that list it, a record lists present
charges alone, each once (R66); and while the part runs, the charges of a run's sources and boards are PLANING, and a charge's
in-flight count is the number of its boards in the queues (R64, R120). -/
structure RefsOk (s : State) : Prop where
  counts : ∀ c ∈ s.charges.entries, c.refs = s.listings c.id
  present : ∀ id, s.listings id ≠ 0 → ∃ c ∈ s.charges.entries, c.id = id
  once : (∀ q ∈ s.packs.packs, (q.contributors.map Contributor.charge).Nodup) ∧
    ∀ x ∈ s.lots.lots, (x.contributors.map Contributor.charge).Nodup
  grounded : ∀ c ∈ s.charges.entries, c.state ≠ .planing → c.stats.inFlight = 0
  flight : s.retention.phase = .running → ∀ c ∈ s.charges.entries, c.stats.inFlight = s.flying c.id
  run : s.retention.phase = .running → ∀ n, s.tracker.run = some n → (n.state = .isOpen → n.sources ≠ []) ∧
    ∀ id, id ∈ n.sources ∨ id ∈ (n.queueA ++ n.queueB).map Board.charge →
      ∃ c ∈ s.charges.entries, c.id = id ∧ c.state = .planing
  keys : Rising Charge.id s.charges.entries ∧ Rising Pack.id s.packs.packs ∧ Rising Lot.number s.lots.lots

end Sys2Proof.Machine
end

