-- ==== Sys2Proof/Certificates/Slice0/Obligations.lean ====
section
/-! DEFINITION. The statements for the provers. Each says what the rules named in its docstring say; an equation with a next
state says at once what a command changes and that it changes nothing else. -/

open Sys2Proof Sys2Proof.Machine

/-! ## The queue of commands -/

/-- The model's form: a step takes the command at the front of the queue and runs it with the queue's rest (log 1). -/
def Obligations.StepRunsTheFrontCommand : Prop :=
  ∀ (c : Instr) (rest : List Instr) (s : State), s.pending = c :: rest → step s = exec c (s.withPending rest)

/-- No command stops the part (log 28), and none reads or changes the queue of waiting commands; with no command waiting the
part idles (the model's choice, log 1). -/
def Obligations.EveryCommandAnswersAndLeavesTheQueue : Prop :=
  (∀ (c : Instr) (s : State) (l : List Instr),
    ∃ t, exec c s = .next t ∧ t.pending = s.pending ∧ exec c (s.withPending l) = .next (t.withPending l)) ∧
  ∀ s : State, s.pending = [] → step s = .next s

/-! ## Transfers (chapter 1) -/

/-- POST (R4, R5, R21): to an EMPTY slot the record that the frame carries (its kind, its tag, high byte first, and as many
body bytes as its length byte says) is stored under a new ticket, and the slot is POSTED, or TAKEN with the port unit's own
refusal on its way where one of the three checks fails; where the slot is not EMPTY it is SLOT_BUSY, and a length byte above
248 is BAD_LENGTH, the slot unchanged. That BAD_LENGTH goes before SLOT_BUSY where both hold is the model's choice (log 36). -/
def Obligations.PostActsOnTheSlotState : Prop :=
  ∀ (p : Port) (kind high low l : Byte) (rest : List Byte) (s : State), Quiet s p →
    let bs := kind :: high :: low :: l :: rest
    let r : Request := { kind := kind, tag := high ++ low, body := rest.take l.toNat }
    (l.toNat ≤ 248 → l.toNat ≤ rest.length → (s.port p).slot = .empty →
      (portCheck p r = none →
        exec (.post p (.rises bs)) s = .next (s.framed p bs []
          { s.port p with slot := .posted r, ticket := (s.port p).ticket + 1 } .ok)) ∧
      (∀ e, portCheck p r = some e →
        exec (.post p (.rises bs)) s = .next (s.framed p bs []
          { s.port p with
            slot := .taken r, ticket := (s.port p).ticket + 1
            inFlight := (s.port p).inFlight ++
              [((s.port p).ticket + 1, ⟨r.kind, r.tag, .refused e⟩)] } .ok))) ∧
    (l.toNat ≤ 248 → l.toNat ≤ rest.length → (s.port p).slot ≠ .empty →
      exec (.post p (.rises bs)) s = .next (s.framed p bs [] (s.port p) .slotBusy)) ∧
    (248 < l.toNat → exec (.post p (.rises bs)) s = .next (s.framed p bs [] (s.port p) .badLength))

/-- The three checks of R5 in their order: the kind is one of the codes of section 1.10; the port is one that the table of R5
gives the kind; and a kiln request names a kiln of 1 to 12 in field 1. -/
def Obligations.PostChecksKindThenPortThenKiln : Prop :=
  ∀ (p : Port) (r : Request),
    let code := r.kind.toNat
    let known : Prop := (0x01 ≤ code ∧ code ≤ 0x03) ∨ (0x10 ≤ code ∧ code ≤ 0x17) ∨ (0x20 ≤ code ∧ code ≤ 0x26) ∨
      (0x30 ≤ code ∧ code ≤ 0x36) ∨ (0x40 ≤ code ∧ code ≤ 0x49) ∨ (0x50 ≤ code ∧ code ≤ 0x52) ∨
      (0x60 ≤ code ∧ code ≤ 0x63) ∨ (0x70 ≤ code ∧ code ≤ 0x73) ∨ (0x80 ≤ code ∧ code ≤ 0x82) ∨
      (0x90 ≤ code ∧ code ≤ 0x92)
    let allowed : Prop := match p with
      | .K => code ≠ 0x45 ∧ code ∉ [0x03, 0x92, 0x82, 0x62, 0x24, 0x51, 0x50, 0x61, 0x81]
      | .P => code ∉ [0x30, 0x26] ∧ code ∉ [0x20, 0x21] ∧ code ∉ [0x03, 0x92, 0x82, 0x62, 0x24, 0x51, 0x50, 0x61, 0x81]
      | .Y => code ∉ [0x30, 0x26] ∧ code ≠ 0x45
    let ofKiln : Prop := code ∈ [0x22, 0x23, 0x30, 0x31, 0x32, 0x33, 0x34, 0x35, 0x36]
    let named : Prop := ∃ n rest, r.body = n :: rest ∧ 1 ≤ n.toNat ∧ n.toNat ≤ 12
    (¬known → portCheck p r = some .badKind) ∧
    (known → ¬allowed → portCheck p r = some .wrongPort) ∧
    (known → allowed → ofKiln → ¬named → portCheck p r = some (.badField 1)) ∧
    (known → allowed → (ofKiln → named) → portCheck p r = none)

/-- WITHDRAW acts on the slot state as it stands at its completion (R7). -/
def Obligations.WithdrawActsOnTheSlotState : Prop :=
  ∀ (p : Port) (bs : List Byte) (s : State), Quiet s p →
    (∀ r, (s.port p).slot = .posted r → exec (.withdraw p (.rises bs)) s =
      .next (s.framed p bs [] { s.port p with slot := .empty } .ok)) ∧
    (∀ r, (s.port p).slot = .taken r → exec (.withdraw p (.rises bs)) s = .next (s.framed p bs [] (s.port p) .tooLate)) ∧
    (∀ a, (s.port p).slot = .doneWaiting a →
      exec (.withdraw p (.rises bs)) s = .next (s.framed p bs [] (s.port p) .tooLate)) ∧
    ((s.port p).slot = .empty → exec (.withdraw p (.rises bs)) s = .next (s.framed p bs [] (s.port p) .none))

/-- FETCH (R8): a complete frame sends the answer behind its length and empties the buffer, into which a staged answer moves
with ANSWER_READY; an empty buffer sends the empty marker and changes nothing. PEEK sends the fifteen bytes of the status
record and changes nothing apart from the last result (R11). The bits of the status byte and the bytes of the status record
(R3, R11, R21), the bytes of an answer record with the reason codes and details (R10, R21), and the bytes of a number, a text,
a flag and a pair (R21, R22) are written out. That an answer body is cut at 248 bytes is the model's choice (log 10). -/
def Obligations.FetchAndPeekSendWhatTheyRead : Prop :=
  (∀ (p : Port) (bs : List Byte) (s : State), Quiet s p →
    (∀ a, (s.port p).buffer = some a → 1 + a.bytes.length ≤ bs.length → (s.port p).slot.hasStaged = false →
      exec (.fetch p (.rises bs)) s = .next (s.framed p bs (BitVec.ofNat 8 a.bytes.length :: a.bytes)
        { s.port p with buffer := none } .ok)) ∧
    (∀ a b, (s.port p).buffer = some a → 1 + a.bytes.length ≤ bs.length → (s.port p).slot = .doneWaiting b →
      exec (.fetch p (.rises bs)) s = .next (s.framed p bs (BitVec.ofNat 8 a.bytes.length :: a.bytes)
        { s.port p with
          slot := .empty, buffer := some b
          pending := (s.port p).pending ||| (0x000001 &&& (s.port p).enabled) } .ok)) ∧
    ((s.port p).buffer = none → 1 ≤ bs.length →
      exec (.fetch p (.rises bs)) s = .next (s.framed p bs [0] (s.port p) .ok)) ∧
    (15 ≤ bs.length → exec (.peek p (.rises bs)) s = .next (s.framed p bs (s.statusRecord p) (s.port p) .ok))) ∧
  (∀ (p : Port) (s : State),
    let u := s.port p
    let slot : BitVec 2 := match u.slot with | .empty => 0 | .posted _ => 1 | .taken _ => 2 | .doneWaiting _ => 3
    let last : BitVec 3 := match u.last with
      | .blank => 0 | .ok => 1 | .slotBusy => 2 | .tooLate => 3 | .none => 4 | .badTransfer => 5 | .badLength => 6
      | .frameShort => 7
    let answer := BitVec.ofBool u.buffer.isSome
    let staged := BitVec.ofBool (match u.slot with | .doneWaiting _ => true | _ => false)
    let alert := BitVec.ofBool (decide (u.pending ≠ 0))
    let warm := BitVec.ofBool (decide (s.retention.startKind = .warm))
    let minutes := BitVec.ofNat 32 s.clock.minutes
    s.statusByte p = slot ++ answer ++ alert ++ warm ++ last ∧
    s.statusRecord p =
      [(0 : BitVec 6) ++ slot, (0 : BitVec 4) ++ BitVec.ofBool s.clock.isSet ++ warm ++ staged ++ answer,
        u.pending.extractLsb' 16 8, u.pending.extractLsb' 8 8, u.pending.extractLsb' 0 8,
        u.enabled.extractLsb' 16 8, u.enabled.extractLsb' 8 8, u.enabled.extractLsb' 0 8,
        (s.port .P).notes ++ (s.port .K).notes, (0 : BitVec 4) ++ (s.port .Y).notes, BitVec.ofNat 8 u.errors,
        minutes.extractLsb' 24 8, minutes.extractLsb' 16 8, minutes.extractLsb' 8 8, minutes.extractLsb' 0 8]) ∧
  (∀ (kind : Byte) (tag : BitVec 16),
    (∀ body : List Field, (⟨kind, tag, .done body⟩ : Answer).bytes =
      [kind, tag.extractLsb' 8 8, tag.extractLsb' 0 8, 0x00] ++ (body.flatMap Field.bytes).take 248) ∧
    ∀ e : Reason, (⟨kind, tag, .refused e⟩ : Answer).bytes =
      [kind, tag.extractLsb' 8 8, tag.extractLsb' 0 8, 0x01] ++
        match e with
        | .badKind => [1] | .wrongPort => [2] | .notOwner => [3]
        | .heldBy q seized => [4, match q with | .K => 1 | .P => 2 | .Y => 3, if seized then 1 else 0]
        | .badField i => [5, BitVec.ofNat 8 i]
        | .noSuch => [6]
        | .noSuchSequence n => 6 :: [24, 16, 8, 0].map fun low => (BitVec.ofNat 32 n).extractLsb' low 8
        | .badState => [7] | .tableFull => [8] | .inUse => [9] | .mismatch => [10] | .notMetered => [11]
        | .unknownBoard => [12]) ∧
  (∀ w n : Nat, (beBytes w n).length = w ∧ ∀ i, i < w → (beBytes w n)[i]? = some (BitVec.ofNat 8 (n / 256 ^ (w - 1 - i)))) ∧
  (∀ (w n : Nat) (v : Int), (Field.num w n).bytes = beBytes w n ∧
    (Field.int w v).bytes = beBytes w (BitVec.ofInt (8 * w) v).toNat) ∧
  (∀ t : Text, (Field.text t).bytes = BitVec.ofNat 8 t.length :: t) ∧
  (∀ b : Bool, (Field.flag b).bytes = [if b then 1 else 0]) ∧
  ∀ dry depression : BitVec 12, (Field.pair dry.toNat depression.toNat).bytes =
    [16, 8, 0].map fun low => (dry ++ depression).extractLsb' low 8

/-- NOTE sets the port's note flags from bits 0 to 3 and raises NOTE_CHANGED at the other two ports where a flag changes, and
at none otherwise (R12). -/
def Obligations.NoteSetsFlagsAndTellsTheOthers : Prop :=
  ∀ (p : Port) (b : Byte) (bs : List Byte) (s : State), Quiet s p →
    ∃ t, exec (.note p (.rises (b :: bs))) s = .next (s.withPorts t) ∧
      t.get p = ((s.framed p (b :: bs) [] { s.port p with notes := b.setWidth 4 } .ok).port p) ∧
      ∀ q, q ≠ p → t.get q = if b.setWidth 4 = (s.port p).notes then s.port q else (s.port q).raise .noteChanged

/-- ACK removes the named causes from the pending set; MASK makes the carried cause set the enable set and leaves the pending
set; bits 19 to 23 of a carried set name no cause, and the attention line is released with the last pending cause (R16, R17). -/
def Obligations.AckAndMaskWriteTheCauseSets : Prop :=
  ∀ (p : Port) (b0 b1 b2 : Byte) (bs : List Byte) (s : State), Quiet s p →
    let carried : BitVec 24 := ((b0 ++ b1 ++ b2 : BitVec 24)) &&& 0x07FFFF
    let acked := s.framed p (b0 :: b1 :: b2 :: bs) []
      { s.port p with pending := (s.port p).pending &&& ~~~carried } .ok
    exec (.ack p (.rises (b0 :: b1 :: b2 :: bs))) s = .next acked ∧
    ((s.port p).pending &&& ~~~carried = 0 → (acked.port p).attention = false) ∧
    exec (.mask p (.rises (b0 :: b1 :: b2 :: bs))) s = .next (s.framed p (b0 :: b1 :: b2 :: bs) []
      { s.port p with enabled := carried } .ok)

/-- PORT RESET (R18, R32): its own unit, NOTE_CHANGED at the others where a note flag changes, and the port's claims that are
not seized; nothing else. -/
def Obligations.PortResetResetsItsOwnPort : Prop :=
  ∀ (p : Port) (bs : List Byte) (s : State), Quiet s p →
    ∃ t u, exec (.portReset p (.rises bs)) s = .next ((s.withPorts t).withClaims u) ∧
      t.get p = ((s.framed p bs []
        { s.port p with
          slot := .empty, buffer := none, pending := 0, enabled := defaultEnable p, notes := 0, errors := 0 } .ok).port p) ∧
      (∀ q, q ≠ p → t.get q = if (s.port p).notes = 0 then s.port q else (s.port q).raise .noteChanged) ∧
      ∀ res, u.get res =
        if (s.claim res).owner = some p ∧ (s.claim res).seized = false then ⟨none, false⟩ else s.claim res

/-- A short frame does not act: its error count rises unless it stands at 255, and the last result is FRAME_SHORT; this holds
of a FETCH with an empty buffer too. A frame of an unknown kind does not act: the last result becomes BAD_TRANSFER. An empty
frame leaves the port as it was. The kind byte names the transfer as R21 tables it, and every other byte is an unknown kind
(R2, R8, R21); a frame given as unknown whose kind byte R21 tables changes nothing (log 35). -/
def Obligations.ShortAndUnknownFramesDoNotAct : Prop :=
  (∀ (p : Port) (e : FrameEvent),
    frameCommand p 0xC1 e = .post p e ∧ frameCommand p 0xC2 e = .withdraw p e ∧ frameCommand p 0xC3 e = .fetch p e ∧
    frameCommand p 0xC4 e = .peek p e ∧ frameCommand p 0xC5 e = .note p e ∧ frameCommand p 0xC6 e = .ack p e ∧
    frameCommand p 0xC7 e = .mask p e ∧ frameCommand p 0xCF e = .portReset p e ∧
    ∀ kind : Byte, (kindIsUnknown kind = true ↔ kind ∉ [0xC1, 0xC2, 0xC3, 0xC4, 0xC5, 0xC6, 0xC7, 0xCF]) ∧
      (kindIsUnknown kind = true → frameCommand p kind e = .unknownTransfer p kind e)) ∧
  ∀ (p : Port) (bs : List Byte) (s : State), Quiet s p →
    let short (reply : List Byte) : Result := .next (s.framed p bs reply
      { s.port p with errors := if (s.port p).errors < 255 then (s.port p).errors + 1 else 255 } .frameShort)
    (bs.length < 4 → exec (.post p (.rises bs)) s = short []) ∧
    (∀ l, bs[3]? = some l → l.toNat ≤ 248 → bs.length < 4 + l.toNat → exec (.post p (.rises bs)) s = short []) ∧
    (bs = [] → exec (.note p (.rises bs)) s = short []) ∧
    (bs.length < 3 → exec (.ack p (.rises bs)) s = short [] ∧ exec (.mask p (.rises bs)) s = short []) ∧
    (bs.length < 15 → exec (.peek p (.rises bs)) s = short (s.statusRecord p)) ∧
    (∀ a, (s.port p).buffer = some a → bs.length < 1 + a.bytes.length →
      exec (.fetch p (.rises bs)) s = short (BitVec.ofNat 8 a.bytes.length :: a.bytes)) ∧
    ((s.port p).buffer = none → bs = [] → exec (.fetch p (.rises bs)) s = short [0]) ∧
    (∀ c, isTransfer p c → exec (c .empty) s = .next s ∧ ∃ t, exec (c .falls) s = .next t ∧ exec (c .empty) t = .next s) ∧
    ∀ kind : Byte,
      (kindIsUnknown kind = true →
        exec (.unknownTransfer p kind (.rises bs)) s = .next (s.framed p bs [] (s.port p) .badTransfer)) ∧
      (kindIsUnknown kind = false → exec (.unknownTransfer p kind (.rises bs)) s = .next s)

/-- The arrival of an answer in flight (R6): it enters an empty buffer with ANSWER_READY, is staged behind a full one, and is
discarded where the slot is not TAKEN or the ticket is another. -/
def Obligations.AnswerArrivesByTicketAndBuffer : Prop :=
  ∀ (p : Port) (i : Nat) (x : BitVec 32) (a : Answer) (s : State),
    s.retention.phase = .running → (s.port p).inFlight[i]? = some (x, a) →
    let u := { s.port p with inFlight := (s.port p).inFlight.eraseIdx i }
    (∀ r, (s.port p).slot = .taken r → x = (s.port p).ticket → (s.port p).buffer = none →
      exec (.answerArrival p i) s = .next (s.setPort p
        { u with
          slot := .empty, buffer := some a, pending := (s.port p).pending ||| (0x000001 &&& (s.port p).enabled) })) ∧
    (∀ r b, (s.port p).slot = .taken r → x = (s.port p).ticket → (s.port p).buffer = some b →
      exec (.answerArrival p i) s = .next (s.setPort p { u with slot := .doneWaiting a })) ∧
    ((∀ r, (s.port p).slot ≠ .taken r) ∨ x ≠ (s.port p).ticket → exec (.answerArrival p i) s = .next (s.setPort p u))

/-- A frame may come in pieces, with other commands between them (R2, log 3): bytes, and then the rest with the rise of chip
select, do what all of them at the rise do. The status byte is the port's at the fall of chip select (R3), the copies of FETCH
and PEEK are those of the completed kind byte (R8, R11), and the transfer acts on the state at its end; a FETCH that copied an
empty buffer changes nothing though an answer has entered it since. A cut frame sends 0x00 in every further byte, and its end
changes nothing: it does not act, is not counted and leaves the last result (R19, R20, log 4); so is every frame until a start
completes, and without main power a frame sends nothing (log 16). Model's choices: how a frame is given in pieces (log 3),
that a frame open across a start, or opened in one, stays cut (log 4, DEDUCED, unsafe), and what stands while main power is
off (log 16, unsafe). -/
def Obligations.FramePiecesJoin : Prop :=
  (∀ (p : Port) (c : FrameEvent → Instr) (bs cs : List Byte) (s t : State), isTransfer p c →
    exec (c (.bytes bs)) s = .next t → exec (c (.rises cs)) t = exec (c (.rises (bs ++ cs))) s) ∧
  ∀ (p : Port) (c : FrameEvent → Instr) (reply : FrameCopy → List Byte) (bs : List Byte) (s : State), Sends p c reply →
    let f := s.openFrame p
    let y := s.copyFor p f
    let sent := f.sentAfter (reply y) bs.length
    let withFrame (x : Option OpenFrame) : State := s.setPort p { s.port p with frame := x }
    let closed (u : PortUnit) : State := s.setPort p { u with frame := none, sent := sent }
    (s.retention.phase ≠ .off →
      ((s.port p).frame = none → exec (c .falls) s = .next (withFrame (some f))) ∧
      exec (c (.bytes bs)) s =
        .next (withFrame (some { f with copy := some y, received := f.received ++ bs, sent := sent })) ∧
      exec (c .empty) s = .next (withFrame none) ∧
      (f.cut = true → exec (c (.rises bs)) s = .next (closed (s.port p)))) ∧
    (s.retention.phase = .running → f.cut = false →
      (∀ t, (c = .fetch p → y.buffer = (s.port p).buffer) →
        exec (c (.rises (f.received ++ bs))) (withFrame none) = .next t →
        exec (c (.rises bs)) s = .next (t.setPort p { t.port p with sent := sent })) ∧
      (c = .fetch p → y.buffer = none → exec (c (.rises bs)) s = .next (closed
        (if f.received ++ bs = [] then { s.port p with
            errors := if (s.port p).errors < 255 then (s.port p).errors + 1 else 255, last := .frameShort }
          else { s.port p with last := .ok })))) ∧
    (s.retention.phase = .off →
      exec (c .falls) s = .next (withFrame (some f)) ∧ exec (c (.bytes bs)) s = .next (withFrame (some f)) ∧
      exec (c .empty) s = .next (s.setPort p { s.port p with frame := none, sent := [] }) ∧
      exec (c (.rises bs)) s = .next (s.setPort p { s.port p with frame := none, sent := [] }))

/-- Where no command resets every port, a command about one port changes no other port unit but its pending set, and one about
none changes no unit but its pending set (R1, R13). -/
def Obligations.PortUnitsAreSeparate : Prop :=
  ∀ (c : Instr) (q : Port) (s t : State), exec c s = .next t → resetsPorts c = false → portOf c ≠ some q →
    { t.port q with pending := (s.port q).pending } = s.port q

/-- Pending causes are removed by ACK and PORT RESET of their own port, RESTART and the starts alone (R13, R16). A raise joins
the pending set where the cause is in the port's own enable set and is dropped where it is not, at the port named or at all
three; cause n of the nineteen is bit n − 1 (R13, R14, R21). -/
def Obligations.PendingCausesStayUntilAcked : Prop :=
  (∀ (n : Nat) (c : Cause) (s : State), ([Cause.answerReady, .claimLost, .noteChanged, .kilnPhase, .kilnDeviation, .sensorStale,
      .samplesShort, .stepOvertime, .htCertified, .meterState, .trackOverrun, .chargeWet, .packClosed, .registerFull,
      .redryFull, .printerFault, .traceMark, .strayBoard, .restarted] : List Cause)[n]? = some c →
    let raised (u : PortUnit) : PortUnit := { u with pending := u.pending ||| (BitVec.ofNat 24 (2 ^ n) &&& u.enabled) }
    (∀ p q, (s.raiseAt p c).port q = if q = p then raised (s.port q) else s.port q) ∧
    ∀ q, (s.raiseAll c).port q = raised (s.port q)) ∧
  ∀ (c : Instr) (q : Port) (s t : State), exec c s = .next t → resetsPorts c = false →
    (∀ f, c ≠ .ack q f) → (∀ f, c ≠ .portReset q f) → (s.port q).pending &&& (t.port q).pending = (s.port q).pending

/-! ## Takes and claims (chapters 1 and 2) -/

/-- A take with a bad body field is refused BAD_FIELD with the index of the first one, once its claim check has passed (R9,
R22, R36, R43); a take whose answer is REFUSED changes nothing but its port's slot and answers in flight (R6, R9); a take
finds nothing to do where the port holds no POSTED request of its kind (R6). -/
def Obligations.TakesThatDoNotAct : Prop :=
  (∀ (c : Instr) (p : Port) (code : Byte) (r : Request) (i : Nat) (s : State),
    takenBy c = some (p, code) → Offers s p code r → (∀ res, gatedBy c = some res → Owns s p res) →
    (gatedByKiln c = true → ∀ (k : KilnNo) (b : Byte) (rest : List Byte),
      r.body = b :: rest → b.toNat = k.val + 1 → Owns s p (.kiln k)) →
    firstBad (layoutOf code) (r.body.length + 1) [] r.body = some i →
    exec c s = .next (s.refusedWith p r (.badField i))) ∧
  (∀ (c : Instr) (p : Port) (code : Byte) (r : Request) (x : BitVec 32) (a : Answer) (e : Reason) (s t : State),
    takenBy c = some (p, code) → Offers s p code r → exec c s = .next t →
    (t.port p).inFlight.getLast? = some (x, a) → a.verdict = .refused e → t = s.refusedWith p r e) ∧
  ∀ (c : Instr) (p : Port) (code : Byte) (s : State), takenBy c = some (p, code) →
    (∀ r, ¬Offers s p code r) → exec c s = .next s

/-- The claim check comes before the body's (R28): a gated take from a port that does not own the claim is NOT_OWNER, whatever
its body; for a kiln command the claim is that of the kiln in field 1. -/
def Obligations.GatedTakesNeedTheClaim : Prop :=
  (∀ (c : Instr) (p : Port) (code : Byte) (res : Resource) (r : Request) (s : State),
    takenBy c = some (p, code) → gatedBy c = some res → Offers s p code r → ¬Owns s p res →
    exec c s = .next (s.refusedWith p r .notOwner)) ∧
  ∀ (c : Instr) (p : Port) (code b : Byte) (rest : List Byte) (k : KilnNo) (r : Request) (s : State),
    takenBy c = some (p, code) → gatedByKiln c = true → Offers s p code r → r.body = b :: rest → b.toNat = k.val + 1 →
    ¬Owns s p (.kiln k) → exec c s = .next (s.refusedWith p r .notOwner)

/-- CLAIM, RELEASE and SEIZE at their takes, by the owner of the record (R24 to R27). -/
def Obligations.ClaimRequestsActOnTheOwner : Prop :=
  ∀ (p : Port) (r : Request) (res : Resource) (s : State), readResource r.body = .ok res →
    let c := s.claim res
    (Offers s p 0x01 r → c.owner = none →
      exec (.claim p) s = .next ((s.setClaim res ⟨some p, c.seized⟩).done p r
        [.num 1 res.code, .flag false, .flag c.seized])) ∧
    (Offers s p 0x01 r → c.owner = some p →
      exec (.claim p) s = .next (s.done p r [.num 1 res.code, .flag true, .flag c.seized])) ∧
    (∀ q, Offers s p 0x01 r → c.owner = some q → q ≠ p →
      exec (.claim p) s = .next (s.refusedWith p r (.heldBy q c.seized))) ∧
    (Offers s p 0x02 r → c.owner = some p →
      exec (.release p) s = .next ((s.setClaim res ⟨none, false⟩).done p r [.num 1 res.code, .flag c.seized])) ∧
    (Offers s p 0x02 r → c.owner ≠ some p → exec (.release p) s = .next (s.refusedWith p r .notOwner)) ∧
    (Offers s p 0x03 r → c.owner = none ∨ c.owner = some .Y →
      exec (.seize p) s = .next ((s.setClaim res ⟨some .Y, true⟩).done p r
        [.num 1 res.code, .num 1 (ownerCode c.owner), .flag c.seized])) ∧
    (∀ q, Offers s p 0x03 r → c.owner = some q → q ≠ .Y →
      exec (.seize p) s = .next (((s.setClaim res ⟨some .Y, true⟩).raiseAt q .claimLost).done p r
        [.num 1 res.code, .num 1 (ownerCode (some q)), .flag c.seized]))

/-! ## The library (chapters 3 and 12) -/

/-- PUT SPECIES, DELETE SPECIES and SPECIES QUERY at their takes; an absent entry is NO_SUCH (R37 to R39). -/
def Obligations.SpeciesRequestsComplete : Prop :=
  ∀ (p : Port) (r : Request) (s : State),
    (∀ x, Offers s p 0x10 r → Owns s p .library → readSpecies r.body = .ok x →
      exec (.putSpecies p) s = .next ((s.withLibrary { s.library with
        species := keyPut Species.code x s.library.species }).done p r
          [.num 1 x.code, .flag (s.species x.code).isSome])) ∧
    (∀ n, Offers s p 0x11 r → Owns s p .library → readOne 1 1 32 r.body = .ok n →
      (s.species n = none → exec (.deleteSpecies p) s = .next (s.refusedWith p r .noSuch)) ∧
      (∀ x, s.species n = some x → (∀ c ∈ s.charges.entries, c.species ≠ n) →
        exec (.deleteSpecies p) s = .next ((s.withLibrary { s.library with
          species := s.library.species.filter fun y => y.code != n }).done p r [.num 1 n])) ∧
      (∀ x, s.species n = some x → (∃ c ∈ s.charges.entries, c.species = n) →
        exec (.deleteSpecies p) s = .next (s.refusedWith p r .inUse))) ∧
    (∀ n, Offers s p 0x12 r → readOne 1 1 32 r.body = .ok n →
      (s.species n = none → exec (.speciesQuery p) s = .next (s.refusedWith p r .noSuch)) ∧
      (∀ x, s.species n = some x → exec (.speciesQuery p) s = .next (s.done p r
        [.num 1 n, .text x.label, .num 2 x.factor, .int 1 x.offset, .num 1 x.coefficient,
          .num 1 (s.charges.entries.filter fun c => c.species == n).length])))

/-- PUT SCHEDULE, DELETE SCHEDULE and SCHEDULE QUERY at their takes; a schedule in use is neither replaced nor deleted, and an
absent one is NO_SUCH (R43 to R46, R48). -/
def Obligations.ScheduleRequestsComplete : Prop :=
  ∀ (p : Port) (r : Request) (s : State),
    (∀ x, Offers s p 0x13 r → Owns s p .library → readSchedule r.body = .ok x →
      (s.inUse x.number = 0 →
        exec (.putSchedule p) s = .next ((s.withLibrary { s.library with
          schedules := keyPut Schedule.number x s.library.schedules }).done p r
            [.num 1 x.number, .flag (s.schedule x.number).isSome, .num 1 x.steps.count])) ∧
      (s.inUse x.number ≠ 0 → exec (.putSchedule p) s = .next (s.refusedWith p r .inUse))) ∧
    (∀ n, Offers s p 0x14 r → Owns s p .library → readOne 1 1 16 r.body = .ok n →
      (s.schedule n = none → exec (.deleteSchedule p) s = .next (s.refusedWith p r .noSuch)) ∧
      (∀ x, s.schedule n = some x → s.inUse n = 0 →
        exec (.deleteSchedule p) s = .next ((s.withLibrary { s.library with
          schedules := s.library.schedules.filter fun y => y.number != n }).done p r [.num 1 n])) ∧
      (∀ x, s.schedule n = some x → s.inUse n ≠ 0 → exec (.deleteSchedule p) s = .next (s.refusedWith p r .inUse))) ∧
    (∀ n, Offers s p 0x15 r → readOne 1 1 16 r.body = .ok n →
      (s.schedule n = none → exec (.scheduleQuery p) s = .next (s.refusedWith p r .noSuch)) ∧
      (∀ x, s.schedule n = some x →
        exec (.scheduleQuery p) s = .next (s.done p r (x.fields ++ [.num 1 (s.inUse n)]))))

/-- PUT GRADE TEXT, PUT LENGTH BANDS, PUT PARAMETER and PARAMETER QUERY at their takes, and what the bodies of the first three
are read as, with the eighteen ranges of R194; an empty grade text and a band count of 0 read and change nothing (R49, R50,
R194, R195, R196). That the eight bands of the PUT LENGTH BANDS answer are sent without a count, and each bound with its own
text behind it, are the model's choices (logs 25 and 38, DEDUCED, unsafe). -/
def Obligations.TextBandAndParameterRequestsComplete : Prop :=
  (∀ rest : List Byte,
    (∀ (g : Nat) (t : Text), 1 ≤ g → g ≤ 8 → t.length ≤ 6 → t.all printable = true →
      readGradeText (beBytes 1 g ++ (Field.text t).bytes ++ rest) = .ok (g, t)) ∧
    readLengthBands (beBytes 1 0 ++ rest) = .ok [] ∧
    (∀ l : List Band, l.length = 8 → (l.Pairwise fun a b => a.bound < b.bound) →
      (∀ b ∈ l, 500 ≤ b.bound ∧ b.bound ≤ 7500 ∧ 1 ≤ b.text.length ∧ b.text.length ≤ 4 ∧ b.text.all printable = true) →
      readLengthBands (beBytes 1 8 ++ (l.flatMap fun b => beBytes 2 b.bound ++ (Field.text b.text).bytes) ++ rest) = .ok l) ∧
    (∀ n lo hi v, (n, lo, hi) ∈ [(1, 10, 100), (2, 5, 240), (3, 1, 60), (4, 2, 60), (5, 500, 800), (6, 1, 240), (7, 5, 240),
        (8, 0, 100), (9, 0, 150), (10, 1, 2), (11, 10, 1000), (12, 10, 1000), (13, 4, 64), (14, 100, 10000), (15, 1, 15),
        (16, 1, 15), (17, 1, 15)] → lo ≤ v → v ≤ hi →
      readParameter (beBytes 1 n ++ beBytes 2 v ++ rest) = .ok (n, .number v)) ∧
    ∀ t : Text, t.length ≤ 16 → t.all printable = true →
      readParameter (beBytes 1 18 ++ (Field.text t).bytes ++ rest) = .ok (18, .header t)) ∧
  ∀ (p : Port) (r : Request) (s : State),
    (∀ g t, Offers s p 0x16 r → Owns s p .library → readGradeText r.body = .ok (g, t) →
      (t ≠ [] → exec (.putGradeText p) s = .next ((s.withLibrary { s.library with
        gradeTexts := s.library.gradeTexts.set (slot1 7 g) t }).done p r
          [.num 1 g, .text (s.library.gradeTexts.get (slot1 7 g))])) ∧
      (t = [] → exec (.putGradeText p) s = .next (s.done p r
        [.num 1 g, .text (s.library.gradeTexts.get (slot1 7 g))]))) ∧
    (∀ l, Offers s p 0x17 r → Owns s p .library → readLengthBands r.body = .ok l →
      (∀ h : l.length = 8, exec (.putLengthBands p) s = .next ((s.withLibrary { s.library with bands := ⟨l, h⟩ }).done p r
        (s.library.bands.cells.flatMap fun b => [.num 2 b.bound, .text b.text]))) ∧
      (l = [] → exec (.putLengthBands p) s = .next (s.done p r
        (s.library.bands.cells.flatMap fun b => [.num 2 b.bound, .text b.text])))) ∧
    (∀ n v, Offers s p 0x90 r → Owns s p .library → readParameter r.body = .ok (n, .number v) →
      exec (.putParameter p) s = .next ((s.withLibrary { s.library with
        params := { s.library.params with values := s.library.params.values.set (slot1 16 n) v } }).done p r
          [.num 1 n, .num 2 (s.library.params.values.get (slot1 16 n)), .num 2 v])) ∧
    (∀ n t, Offers s p 0x90 r → Owns s p .library → readParameter r.body = .ok (n, .header t) →
      exec (.putParameter p) s = .next ((s.withLibrary { s.library with
        params := { s.library.params with header := t } }).done p r
          [.num 1 n, .text s.library.params.header, .text t])) ∧
    (∀ n, Offers s p 0x91 r → readOne 1 0 18 r.body = .ok n →
      exec (.parameterQuery p) s = .next (s.done p r
        (if n = 0 then s.library.params.values.cells.map (.num 2) ++ [.text s.library.params.header]
          else if n = 18 then [.num 1 n, .text s.library.params.header]
          else [.num 1 n, .num 2 (s.library.params.values.get (slot1 16 n))])))

/-- A schedule whose values lie within the ranges of R41 and R42, the thresholds of a MOISTURE schedule never rising (R43), is
read back by PUT SCHEDULE, to the last field, from the very bytes in which SCHEDULE QUERY reports it (R41, R42, R48). -/
def Obligations.PutScheduleReadsBackWhatQueryReports : Prop :=
  ∀ (x : Schedule) (rest : List Byte),
    1 ≤ x.number ∧ x.number ≤ 16 → 40 ≤ x.finalTarget ∧ x.finalTarget ≤ 300 → x.ramp ≤ 200 →
    (∀ e, x.equalize = some e → 200 ≤ e.dry ∧ e.dry ≤ 1100 ∧ e.depression ≤ 400 ∧ e.band ≤ 100 ∧ 1 ≤ e.maxOn ∧
      e.maxOn ≤ 9999) →
    (∀ e, x.conditioning = some e → 200 ≤ e.dry ∧ e.dry ≤ 1100 ∧ e.depression ≤ 400 ∧ 1 ≤ e.minutes ∧ e.minutes ≤ 9999) →
    x.coolEnd ≤ 800 → 1 ≤ x.coolMax ∧ x.coolMax ≤ 9999 → 1 ≤ x.steps.count ∧ x.steps.count ≤ 24 →
    (match x.steps with
      | .moisture l => (∀ y ∈ l, 200 ≤ y.dry ∧ y.dry ≤ 1100 ∧ y.depression ≤ 400 ∧ y.threshold ≤ 2000 ∧ y.minOn ≤ 9999 ∧
          y.maxOn ≤ 9999) ∧ l.Pairwise fun a b => b.threshold ≤ a.threshold
      | .time l => ∀ y ∈ l, 200 ≤ y.dry ∧ y.dry ≤ 1100 ∧ y.depression ≤ 400 ∧ 1 ≤ y.duration ∧ y.duration ≤ 9999) →
    readSchedule (x.fields.flatMap Field.bytes ++ rest) = .ok x

/-- The bodies that carry several fields, each in the order and ranges of its rule and in the bytes R22 gives them, are read
as those fields: resources by their numbers (R23), species (R37), charges (R57), loads and unloads (R59, R61), runs (R121),
grade reports (R133), sort entries and their keys (R137, R138), bin targets (R153) and clock settings (R193); and so is a body
of one number. The bodies of the library and of samples, and the forms of the queries, are read back where their requests are
stated. -/
def Obligations.RequestBodiesReadBack : Prop :=
  ∀ rest : List Byte,
    ((∀ k : KilnNo, (Resource.kiln k).code = k.val + 1 ∧ readResource (BitVec.ofNat 8 (k.val + 1) :: rest) = .ok (.kiln k)) ∧
      Resource.planer.code = 13 ∧ readResource (13 :: rest) = .ok .planer ∧
      Resource.library.code = 14 ∧ readResource (14 :: rest) = .ok .library ∧
      Resource.printer.code = 15 ∧ readResource (15 :: rest) = .ok .printer) ∧
    (∀ x : Species, 1 ≤ x.code ∧ x.code ≤ 32 → 1 ≤ x.label.length ∧ x.label.length ≤ 8 → x.label.all printable = true →
      512 ≤ x.factor ∧ x.factor ≤ 2048 → -100 ≤ x.offset ∧ x.offset ≤ 100 → x.coefficient ≤ 40 →
      readSpecies (beBytes 1 x.code ++ (Field.text x.label).bytes ++ beBytes 2 x.factor ++ (Field.int 1 x.offset).bytes ++
        beBytes 1 x.coefficient ++ rest) = .ok x) ∧
    (∀ sp th v, 1 ≤ sp ∧ sp ≤ 32 → 10 ≤ th ∧ th ≤ 150 → 1 ≤ v ∧ v ≤ 2000000000 →
      readDefineCharge (beBytes 1 sp ++ beBytes 1 th ++ beBytes 4 v ++ rest) = .ok (sp, th, v)) ∧
    (∀ (k : KilnNo) id n, 1 ≤ id ∧ id ≤ 65535 → 1 ≤ n ∧ n ≤ 16 →
      readLoad (beBytes 1 (k.val + 1) ++ beBytes 2 id ++ beBytes 1 n ++ rest) = .ok (k, id, n)) ∧
    (∀ (k : KilnNo) id, 1 ≤ id ∧ id ≤ 65535 →
      readUnload (beBytes 1 (k.val + 1) ++ beBytes 2 id ++ rest) = .ok (k, id)) ∧
    (∀ id wet dry policy, 1 ≤ id ∧ id ≤ 65535 → wet ≤ 100 ∨ wet = 255 → dry ≤ 150 ∨ dry = 255 → policy ≤ 2 →
      readOpenRun (beBytes 2 id ++ beBytes 1 wet ++ beBytes 1 dry ++ beBytes 1 policy ++ rest) =
        .ok { charge := id, wetBand := wet, dryBand := dry, policy := policy }) ∧
    (∀ sq g w l, 1 ≤ sq ∧ sq ≤ 65535 → g ≤ 8 → 50 ≤ w ∧ w ≤ 400 → 500 ≤ l ∧ l ≤ 65535 →
      readGradeReport (beBytes 2 sq ++ beBytes 1 g ++ beBytes 2 w ++ beBytes 2 l ++ rest) =
        .ok { seq := sq, grade := g, width := w, length := l }) ∧
    (∀ g w b, 1 ≤ g ∧ g ≤ 8 → 50 ≤ w ∧ w ≤ 400 → 1 ≤ b ∧ b ≤ 8 →
      readSortKeyOnly (beBytes 1 g ++ beBytes 2 w ++ beBytes 1 b ++ rest) = .ok (g, w, b) ∧
      ∀ n, 1 ≤ n ∧ n ≤ 20 → readSortEntry (beBytes 1 g ++ beBytes 2 w ++ beBytes 1 b ++ beBytes 1 n ++ rest) =
        .ok { grade := g, width := w, band := b, bin := n }) ∧
    (∀ bin v, 1 ≤ bin ∧ bin ≤ 20 → 1 ≤ v →
      (v ≤ 2000 → readBinTarget (beBytes 1 bin ++ beBytes 1 1 ++ beBytes 4 v ++ rest) = .ok (bin, .pieces v)) ∧
      (v ≤ 10000000 → readBinTarget (beBytes 1 bin ++ beBytes 1 2 ++ beBytes 4 v ++ rest) = .ok (bin, .volume v))) ∧
    (∀ y mo d h mi, 2000 ≤ y ∧ y ≤ 2199 → 1 ≤ mo ∧ mo ≤ 12 → 1 ≤ d ∧ d ≤ monthDays y mo → h ≤ 23 → mi ≤ 59 →
      readSetClock (beBytes 2 y ++ beBytes 1 mo ++ beBytes 1 d ++ beBytes 1 h ++ beBytes 1 mi ++ rest) =
        .ok { year := y, month := mo, day := d, hour := h, minute := mi }) ∧
    ∀ w lo hi n, lo ≤ n → n ≤ hi → n < 256 ^ w → readOne w lo hi (beBytes w n ++ rest) = .ok n

/-! ## Charges (chapters 4 and 6) -/

/-- A new identifier is the first number after the last-assigned one, counting upward and wrapping to 1, that is not among
those in use; it lies in 1 to its largest value, wherever the count stands, while some number is free (R56, R143, R154). -/
def Obligations.NewIdentifiersAreFree : Prop :=
  ∀ (m last : Nat) (used : List Nat), used.length < m →
    1 ≤ newId m used last ∧ newId m used last ≤ m ∧ newId m used last ∉ used ∧
    let following := fun n : Nat => if n < m then n + 1 else 1
    ∃ passed : Nat, newId m used last = following^[passed + 1] last ∧ ∀ i < passed, following^[i + 1] last ∈ used

/-- DEFINE CHARGE creates a STAGED charge under the next free id, with every other item as R53 begins it; an absent species is
NO_SUCH and a full table TABLE_FULL, in that order (R56, R57). -/
def Obligations.DefineChargeCreatesAStagedCharge : Prop :=
  ∀ (p : Port) (r : Request) (sp th v : Nat) (s : State),
    Offers s p 0x20 r → readDefineCharge r.body = .ok (sp, th, v) →
    let id := newId 65535 (s.charges.entries.map Charge.id) s.charges.lastId
    (s.species sp = none → exec (.defineCharge p) s = .next (s.refusedWith p r .noSuch)) ∧
    (∀ x, s.species sp = some x → s.charges.entries.length < 32 →
      exec (.defineCharge p) s = .next ((s.withCharges
        { lastId := id
          entries := keyPut Charge.id
            { id := id, species := sp, thickness := th, volume := v, state := .staged, kiln := none, schedule := none,
              finalTarget := none, samples := [], controlling := none, wettest := none,
              flags := ⟨false, false, false, false, false⟩, htAccrual := 0, stats := ⟨0, 0, 0, 0, 0⟩, origin := none,
              refs := 0, firstTrace := none } s.charges.entries }).done p r [.num 2 id])) ∧
    (∀ x, s.species sp = some x → 32 ≤ s.charges.entries.length →
      exec (.defineCharge p) s = .next (s.refusedWith p r .tableFull))

/-- Oven-dry weight: green weight × 1000 divided by 1000 plus the green MC, to the nearest gram with halves up (R101). -/
def Obligations.OvenDryWeightIsRoundedToNearest : Prop :=
  ∀ w mc : Nat, 100 ≤ w → w ≤ 50000 → 50 ≤ mc → mc ≤ 2000 →
    2 * w * 1000 < (2 * ovenDryWeight w mc + 1) * (1000 + mc) ∧
    (2 * ovenDryWeight w mc) * (1000 + mc) ≤ 2 * w * 1000 + (1000 + mc) ∧
    33 ≤ ovenDryWeight w mc ∧ ovenDryWeight w mc ≤ 47619

/-- SET SAMPLES replaces the list of a STAGED or LOADED charge with NO_REPORT samples and makes both figures absent; an absent
charge is NO_SUCH, and any other state BAD_STATE; and what its body is read as (R58, R105, R106). -/
def Obligations.SetSamplesReplacesTheList : Prop :=
  (∀ (id : Nat) (l : List (Nat × Nat)) (rest : List Byte), 1 ≤ id → id ≤ 65535 → 2 ≤ l.length → l.length ≤ 8 →
    (∀ g ∈ l, 100 ≤ g.1 ∧ g.1 ≤ 50000 ∧ 50 ≤ g.2 ∧ g.2 ≤ 2000) →
    readSetSamples (beBytes 2 id ++ beBytes 1 l.length ++ (l.flatMap fun g => beBytes 2 g.1 ++ beBytes 2 g.2) ++ rest) =
      .ok (id, l)) ∧
  ∀ (p : Port) (r : Request) (id : Nat) (l : List (Nat × Nat)) (s : State),
    Offers s p 0x21 r → readSetSamples r.body = .ok (id, l) →
    (s.charge id = none → exec (.setSamples p) s = .next (s.refusedWith p r .noSuch)) ∧
    ∀ c, s.charge id = some c →
      (c.state = .staged ∨ c.state = .loaded →
        exec (.setSamples p) s = .next (((s.modifyCharge id fun _ =>
          { c with
            samples := l.mapIdx fun i g => ⟨i + 1, g.1, g.2, ovenDryWeight g.1 g.2, .noReport⟩
            controlling := none, wettest := none }).raiseIf c.controlling.isSome .samplesShort).done p r
          ([.num 2 id, .num 1 l.length] ++
            (l.mapIdx fun i g => [Field.num 1 (i + 1), Field.num 2 (ovenDryWeight g.1 g.2)]).flatten))) ∧
      (c.state ≠ .staged → c.state ≠ .loaded → exec (.setSamples p) s = .next (s.refusedWith p r .badState))

/-- The controlling MC is present with at least two VALID samples and is the mean of the wetter half of them, rounded half up;
the wettest is the largest of them; neither depends on the order of the samples, and both lie in 0 to 2000 (R104). -/
def Obligations.ControllingMCIsTheMeanOfTheWetterHalf : Prop :=
  ∀ (xs : List Sample) (v : List Nat), (xs.filterMap Sample.validMC).Perm v → v.Pairwise (fun a b => b ≤ a) →
    (v.length < 2 → controllingOf xs = none) ∧
    (2 ≤ v.length → controllingOf xs = some
      ((2 * (v.take ((v.length + 1) / 2)).sum + (v.length + 1) / 2) / (2 * ((v.length + 1) / 2)))) ∧
    wettestOf xs = v.head? ∧
    ((∀ m ∈ v, m ≤ 2000) → (∀ m, controllingOf xs = some m → m ≤ 2000) ∧ ∀ m, wettestOf xs = some m → m ≤ 2000)

/-- SAMPLE WEIGHTS applies the weights in order, recomputes both figures and raises SAMPLES_SHORT where the controlling MC is
lost; an absent charge is NO_SUCH, a charge RELEASED or later or without samples BAD_STATE, and more weights than samples
MISMATCH, in that order; and what its body is read as (R102, R103, R105, R106). Model's choices in the answer: the samples are
sent without a count (log 25, DEDUCED, unsafe), and an absent MC takes the width of a present one, its bytes free (log 6,
DESIGN CHOICE, unsafe in the width). -/
def Obligations.SampleWeightsApplyInOrder : Prop :=
  (∀ (id : Nat) (ws : List Nat) (rest : List Byte), 1 ≤ id → id ≤ 65535 → 1 ≤ ws.length → ws.length ≤ 8 →
    (∀ w ∈ ws, w ≤ 50000) →
    readSampleWeights (beBytes 2 id ++ beBytes 1 ws.length ++ ws.flatMap (beBytes 2) ++ rest) = .ok (id, ws)) ∧
  ∀ (p : Port) (r : Request) (id : Nat) (ws : List Nat) (s : State),
    Offers s p 0x26 r → readSampleWeights r.body = .ok (id, ws) →
    (s.charge id = none → exec (.sampleWeights p) s = .next (s.refusedWith p r .noSuch)) ∧
    ∀ c, s.charge id = some c →
      (c.state = .released ∨ c.state = .planing ∨ c.state = .planed ∨ c.samples = [] →
        exec (.sampleWeights p) s = .next (s.refusedWith p r .badState)) ∧
      (c.state ≠ .released → c.state ≠ .planing → c.state ≠ .planed → c.samples ≠ [] → c.samples.length < ws.length →
        exec (.sampleWeights p) s = .next (s.refusedWith p r .mismatch)) ∧
      (c.state ≠ .released → c.state ≠ .planing → c.state ≠ .planed → c.samples ≠ [] → ws.length ≤ c.samples.length →
        ∃ l : List Sample,
          exec (.sampleWeights p) s = .next (((s.modifyCharge id fun _ =>
            { c with samples := l, controlling := controllingOf l, wettest := wettestOf l }).raiseIf
              (c.controlling.isSome && (controllingOf l).isNone) .samplesShort).done p r
            ([.num 2 id, .num 1 (l.filterMap Sample.validMC).length, optNum 2 (controllingOf l), optNum 2 (wettestOf l)] ++
              l.flatMap fun x => match x.status with
                | .noReport => [.num 1 x.number, .absent 2, .sym (.sample .noReport)]
                | .valid _ mc => [.num 1 x.number, .num 2 mc, .sym (.sample .valid)]
                | .suspect _ mc => [.num 1 x.number, .num 2 mc, .sym (.sample .suspect)])) ∧
          l.length = c.samples.length ∧
          ∀ (i : Nat) (x : Sample), c.samples[i]? = some x → l[i]? = some
            (match ws[i]? with
              | none | some 0 => x
              | some w =>
                if w < x.ovenDry then { x with status := .suspect w 0 }
                else { x with
                  status := .valid w (min 2000 ((2 * ((w - x.ovenDry) * 1000) + x.ovenDry) / (2 * x.ovenDry))) }))

/-- LOAD ties a STAGED charge to an empty kiln (R59, R75, R46): the charge, the cleared kiln record, the in-use count and the
LOAD record, whose sequence is the charge's first; and its five refusals in their order. -/
def Obligations.LoadTiesTheChargeToTheKiln : Prop :=
  ∀ (p : Port) (r : Request) (k : KilnNo) (id n : Nat) (s : State),
    Offers s p 0x22 r → readLoad r.body = .ok (k, id, n) → Owns s p (.kiln k) →
    let refused (e : Reason) : Prop := exec (.load p) s = .next (s.refusedWith p r e)
    ((s.kiln k).link ≠ none → refused .badState) ∧
    ((s.kiln k).link = none → s.charge id = none → refused .noSuch) ∧
    ∀ c, (s.kiln k).link = none → s.charge id = some c →
      (c.state ≠ .staged → refused .badState) ∧
      (c.state = .staged → s.schedule n = none → refused .noSuch) ∧
      ∀ x, c.state = .staged → s.schedule n = some x →
        ((∀ l, x.steps = .moisture l → c.samples ≠ []) →
          exec (.load p) s = .next (({ s with
            charges := { s.charges with entries := keyModify Charge.id id (fun c =>
              { c with
                state := .loaded, kiln := some k, schedule := some n, finalTarget := some x.finalTarget
                firstTrace := some s.trace.next }) s.charges.entries }
            kilns := s.kilns.set k
              { link := some id, dry := 0, wet := 0, target := none, accumulator := 0, step := 0, stepOn := 0, phaseOn := 0,
                overtime := false, offRun := 0, onRun := 0, deviation := .inBand, report := (s.kiln k).report,
                age := (s.kiln k).age, stale := (s.kiln k).stale, chart := 0, timer := false }
            library := { s.library with
              inUse := s.library.inUse.set (slot1 15 n) (s.library.inUse.get (slot1 15 n) + 1) } }.writeTrace
              k id .load).done p r [.num 1 (k.val + 1), .num 2 id, .num 1 n, .num 2 x.finalTarget])) ∧
        (∀ l, x.steps = .moisture l → c.samples = [] → refused .badState)

/-- UNLOAD (R61, R62, R75): a LOADED charge returns to STAGED and gives its schedule back, a DRIED one becomes RELEASED; the
kiln record returns to empty with its last report kept. An empty kiln is BAD_STATE, another charge than the one named
MISMATCH, and a charge in any other state BAD_STATE. -/
def Obligations.UnloadClearsTheTie : Prop :=
  ∀ (p : Port) (r : Request) (k : KilnNo) (id : Nat) (s : State),
    Offers s p 0x23 r → readUnload r.body = .ok (k, id) → Owns s p (.kiln k) →
    let refused (e : Reason) : Prop := exec (.unload p) s = .next (s.refusedWith p r e)
    let kilns := s.kilns.set k { Kiln.cold with
      report := (s.kiln k).report, age := (s.kiln k).age, stale := (s.kiln k).stale }
    ((s.kiln k).link = none → refused .badState) ∧
    (∀ other, (s.kiln k).link = some other → other ≠ id → refused .mismatch) ∧
    ∀ c, (s.kiln k).link = some id → s.charge id = some c →
      (∀ n, c.state = .loaded → c.schedule = some n →
        exec (.unload p) s = .next (({ s with
          charges := { s.charges with entries := keyModify Charge.id id (fun c =>
            { c with state := .staged, kiln := none, schedule := none, finalTarget := none }) s.charges.entries }
          kilns := kilns
          library := { s.library with
            inUse := s.library.inUse.set (slot1 15 n) (s.library.inUse.get (slot1 15 n) - 1) } }.writeTrace
            k id .unload).done p r [.num 1 (k.val + 1), .num 2 id, .sym (.state .staged)])) ∧
      (c.state = .dried →
        exec (.unload p) s = .next (({ s with
          charges := { s.charges with entries := keyModify Charge.id id (fun c =>
            { c with state := .released, kiln := none }) s.charges.entries }
          kilns := kilns }.writeTrace k id .unload).done p r [.num 1 (k.val + 1), .num 2 id, .sym (.state .released)])) ∧
      (c.state ≠ .loaded → c.state ≠ .dried → refused .badState)

/-- RETIRE CHARGE frees the entry of a PLANED charge that no record lists, CHARGE QUERY shows a charge, item by item in the
order of R69, or the list of R70; a charge that no present entry holds is NO_SUCH (R67, R69, R70). Absent items and the flags
byte are the free values of logs 6 and 7. -/
def Obligations.RetireChargeAndChargeQueryComplete : Prop :=
  ∀ (p : Port) (r : Request) (id : Nat) (s : State),
    (Offers s p 0x24 r → readOne 2 1 65535 r.body = .ok id →
      (s.charge id = none → exec (.retireCharge p) s = .next (s.refusedWith p r .noSuch)) ∧
      ∀ c, s.charge id = some c →
        (c.state = .planed → c.refs = 0 →
          exec (.retireCharge p) s = .next ((s.withCharges { s.charges with
            entries := s.charges.entries.filter fun d => d.id != id }).done p r
              [.num 2 id, .num 2 c.stats.metered, .num 2 c.stats.wet, .num 2 c.stats.overdry, .num 4 c.stats.mcSum])) ∧
        (c.state ≠ .planed → exec (.retireCharge p) s = .next (s.refusedWith p r .badState)) ∧
        (c.state = .planed → c.refs ≠ 0 → exec (.retireCharge p) s = .next (s.refusedWith p r .inUse))) ∧
    (Offers s p 0x25 r → readOne 2 0 65535 r.body = .ok id → id ≠ 0 →
      (s.charge id = none → exec (.chargeQuery p) s = .next (s.refusedWith p r .noSuch)) ∧
      ∀ c, s.charge id = some c → exec (.chargeQuery p) s = .next (s.done p r
        ([.num 2 c.id, .num 1 c.species, .num 1 c.thickness, .num 4 c.volume, .sym (.state c.state.name),
          (match c.kiln with | some k => .num 1 (k.val + 1) | none => .absent 1), optNum 1 c.schedule, optNum 2 c.finalTarget]
        ++ (match c.state with
          | .held ph h => [.sym (.phase ph), .sym (.holdReason h)]
          | _ => [.absent 1, .absent 1])
        ++ [optNum 2 c.controlling, optNum 2 c.wettest, .chargeFlags c.flags, .num 1 c.htAccrual, .num 2 c.stats.metered,
          .num 2 c.stats.wet, .num 2 c.stats.overdry, .num 4 c.stats.mcSum, .num 1 c.stats.inFlight]
        ++ (match c.origin with
          | some o => .num 1 o.ids.length :: o.ids.map (.num 2) ++ [.flag o.other]
          | none => [.absent 1])
        ++ [.num 1 c.refs, optNum 4 c.firstTrace, .num 1 c.samples.length]
        ++ c.samples.flatMap fun x => [.num 1 x.number, .num 2 x.greenWeight, .num 2 x.greenMC, .num 2 x.ovenDry]
          ++ match x.status with
            | .noReport => [.absent 2, .absent 2, .sym (.sample .noReport)]
            | .valid w mc => [.num 2 w, .num 2 mc, .sym (.sample .valid)]
            | .suspect w mc => [.num 2 w, .num 2 mc, .sym (.sample .suspect)]))) ∧
    (Offers s p 0x25 r → readOne 2 0 65535 r.body = .ok 0 →
      exec (.chargeQuery p) s = .next (s.done p r (.num 1 s.charges.entries.length :: s.charges.entries.flatMap fun d =>
        [.num 2 d.id, .sym (.state d.state.name), .num 1 (match d.kiln with | some k => k.val + 1 | none => 0)])))

/-! ## Kiln units (chapter 5) -/

/-- KILN REPORT (R78): what the body carries, with a channel out of −400 to 1500 marked invalid and not clamped and such cores
dropped; a report for a kiln in LOADED, an active phase or HELD, which clears the age and the stale flag; and a report that is
ignored. -/
def Obligations.KilnReportRefreshesTheKiln : Prop :=
  (∀ (k : KilnNo) (dry wet : Int) (cores : List Int) (rest : List Byte),
    -32768 ≤ dry ∧ dry ≤ 32767 → -32768 ≤ wet ∧ wet ≤ 32767 → (∀ v ∈ cores, -32768 ≤ v ∧ v ≤ 32767) → cores.length ≤ 4 →
    readKilnReport (beBytes 1 (k.val + 1) ++ (Field.int 2 dry).bytes ++ (Field.int 2 wet).bytes ++ beBytes 1 cores.length ++
      cores.flatMap (fun v => (Field.int 2 v).bytes) ++ rest) = .ok (k,
        ⟨⟨dry, decide (-400 ≤ dry ∧ dry ≤ 1500)⟩, ⟨wet, decide (-400 ≤ wet ∧ wet ≤ 1500)⟩,
          cores.filter fun v => decide (-400 ≤ v ∧ v ≤ 1500)⟩)) ∧
  ∀ (p : Port) (r : Request) (k : KilnNo) (rep : KilnReport) (s : State),
    Offers s p 0x30 r → readKilnReport r.body = .ok (k, rep) →
    (∀ c, (s.kiln k).link = some c.id → s.charge c.id = some c →
      c.state = .loaded ∨ (∃ ph, c.state = .active ph) ∨ (∃ ph h, c.state = .held ph h) →
      let t := { s with kilns := s.kilns.set k { s.kiln k with report := some rep, age := 0, stale := false } }
      let body : List Field := [.num 1 (k.val + 1), .flag false, .sym (.state c.state.name), .num 1 (s.kiln k).step,
        .num 2 (s.kiln k).dry, .num 2 (s.kiln k).wet]
      ((s.kiln k).stale = false → exec (.kilnReport p) s = .next (t.done p r body)) ∧
      ((s.kiln k).stale = true →
        exec (.kilnReport p) s = .next (((t.raiseAll .sensorStale).writeTrace k c.id .staleOff).done p r body))) ∧
    ((s.kiln k).link = none → exec (.kilnReport p) s = .next (s.done p r
      [.num 1 (k.val + 1), .flag true, .sym (.state .empty), .num 1 0, .num 2 0, .num 2 0])) ∧
    (∀ c, (s.kiln k).link = some c.id → s.charge c.id = some c → c.state = .dried →
      exec (.kilnReport p) s = .next (s.done p r
        [.num 1 (k.val + 1), .flag true, .sym (.state .dried), .num 1 0, .num 2 0, .num 2 0]))

/-- START (R91): a LOADED charge enters DRYING at step 1; the dry setpoint begins at the last dry actual, clamped to 0 to
1100, where a valid one stands in a report that is not stale, and at step 1's dry-bulb otherwise. An empty kiln and a charge
in any other state are BAD_STATE. -/
def Obligations.StartBeginsDryingAtStepOne : Prop :=
  ∀ (p : Port) (r : Request) (k : KilnNo) (s : State),
    Offers s p 0x31 r → readKilnOnly r.body = .ok k → Owns s p (.kiln k) →
    ((s.kiln k).link = none → exec (.start p) s = .next (s.refusedWith p r .badState)) ∧
    ∀ (c : Charge) (x : Schedule) (tg : KilnTarget), Holds s k c x → x.steps.target 1 = some tg →
      let dry := match (if (s.kiln k).stale then none else (s.kiln k).report) with
        | some rep =>
          if rep.dry.valid then (if rep.dry.value < 0 then 0 else if 1100 < rep.dry.value then 1100 else rep.dry.value.toNat)
          else tg.dry
        | none => tg.dry
      let kl := { s.kiln k with
        dry := dry, wet := dry - tg.depression, target := some tg, accumulator := 0, step := 1, stepOn := 0, phaseOn := 0,
        overtime := false, offRun := 0, onRun := 0, deviation := .inBand, chart := 0, timer := true }
      (c.state = .loaded → exec (.start p) s = .next ((({ s with
          charges := { s.charges with
            entries := keyModify Charge.id c.id (fun c => { c with state := .active .drying }) s.charges.entries }
          kilns := s.kilns.set k kl }.raiseAll .kilnPhase).writeTrace k c.id .start).done p r
            (kilnBody k c.id .drying kl))) ∧
      (c.state ≠ .loaded → exec (.start p) s = .next (s.refusedWith p r .badState))

/-- HOLD, RESUME, SKIP STEP and STOP (R92 to R95, with R83, R86, R87 and R89): the charge, the kiln record, KILN_PHASE and the
trace record of each, by the state the charge is in; an empty kiln is BAD_STATE; and the one field of a kiln command's body,
its kiln number (R5). -/
def Obligations.KilnCommandsComplete : Prop :=
  (∀ (k : KilnNo) (rest : List Byte), readKilnOnly (beBytes 1 (k.val + 1) ++ rest) = .ok k) ∧
  ∀ (p : Port) (r : Request) (k : KilnNo) (s : State), readKilnOnly r.body = .ok k → Owns s p (.kiln k) →
    ((s.kiln k).link = none →
      (Offers s p 0x32 r → exec (.hold p) s = .next (s.refusedWith p r .badState)) ∧
      (Offers s p 0x33 r → exec (.resume p) s = .next (s.refusedWith p r .badState)) ∧
      (Offers s p 0x34 r → exec (.skipStep p) s = .next (s.refusedWith p r .badState)) ∧
      (Offers s p 0x35 r → exec (.stop p) s = .next (s.refusedWith p r .badState))) ∧
    ∀ (c : Charge) (x : Schedule), Holds s k c x →
      (Offers s p 0x32 r →
        (∀ ph, c.state = .active ph → exec (.hold p) s = .next ((s.kilnChange k c.id (s.kiln k)
          (fun c => { c with state := .held ph .command }) .hold).done p r (kilnBody k c.id .held (s.kiln k)))) ∧
        ((∀ ph, c.state ≠ .active ph) → exec (.hold p) s = .next (s.refusedWith p r .badState))) ∧
      (Offers s p 0x33 r →
        (∀ ph h, c.state = .held ph h → exec (.resume p) s = .next ((s.kilnChange k c.id (s.kiln k)
          (fun c => { c with state := .active ph }) .resume).done p r (kilnBody k c.id ph.name (s.kiln k)))) ∧
        ((∀ ph h, c.state ≠ .held ph h) → exec (.resume p) s = .next (s.refusedWith p r .badState))) ∧
      (Offers s p 0x34 r →
        (∀ tg, c.state = .active .drying → (s.kiln k).step < x.steps.count →
          x.steps.target ((s.kiln k).step + 1) = some tg →
          let kl := { s.kiln k with
            target := some tg, wet := (s.kiln k).dry - tg.depression, step := (s.kiln k).step + 1, stepOn := 0,
            overtime := false }
          exec (.skipStep p) s = .next ((s.kilnChange k c.id kl id .skip).done p r (kilnBody k c.id .drying kl))) ∧
        (∀ ph tg, c.state = .active ph → ph ≠ .cooling → (ph = .drying → x.steps.count ≤ (s.kiln k).step) →
          let next : Phase :=
            if ph = .drying ∧ x.equalize.isSome = true then .equalizing
            else if ph ≠ .conditioning ∧ x.conditioning.isSome = true then .conditioning
            else .cooling
          x.phaseTarget next = some tg →
          let kl := { s.kiln k with
            target := some tg, wet := (s.kiln k).dry - tg.depression, step := 0, stepOn := 0, phaseOn := 0, overtime := false }
          exec (.skipStep p) s = .next ((s.kilnChange k c.id kl (fun c => { c with state := .active next }) .skip).done p r
            (kilnBody k c.id next.name kl))) ∧
        (∀ n, c.state = .active .cooling → c.schedule = some n →
          let kl := { s.kiln k with
            dry := 0, wet := 0, target := none, step := 0, accumulator := 0, offRun := 0, onRun := 0, deviation := .inBand,
            timer := false }
          exec (.skipStep p) s = .next (((s.setInUse n (s.inUse n - 1)).kilnChange k c.id kl
            (fun c => { c with state := .dried }) .skip).done p r (kilnBody k c.id .dried kl))) ∧
        ((∀ ph, c.state ≠ .active ph) → exec (.skipStep p) s = .next (s.refusedWith p r .badState))) ∧
      (Offers s p 0x35 r →
        let kl := { s.kiln k with
          target := some ⟨x.coolEnd, 0⟩, wet := (s.kiln k).dry, step := 0, stepOn := 0, phaseOn := 0, overtime := false }
        ((∃ ph, c.state = .active ph ∧ ph ≠ .cooling) ∨ (∃ ph h, c.state = .held ph h) →
          exec (.stop p) s = .next ((s.kilnChange k c.id kl
            (fun c => { c with state := .active .cooling, flags := { c.flags with earlyStop := true } }) .phase).done p r
              (kilnBody k c.id .cooling kl))) ∧
        ((∀ ph, c.state = .active ph → ph = .cooling) → (∀ ph h, c.state ≠ .held ph h) →
          exec (.stop p) s = .next (s.refusedWith p r .badState)))

/-- A minute of a HELD charge (R76, R79, R80, R81, R82, R84, R90, R188): the report ages, heat treatment accrues and the chart
runs, with the alerts and the trace records of each; nothing else of the kiln, its charge or any other block changes. That the
deviation state stands still though a run already met its parameter is R81's "the state stays as it was through a hold" and
log 31 (DEDUCED, unsafe). The records and pending sets are given while the log is clear of a wrap. -/
def Obligations.HeldMinuteFreezesTheKiln : Prop :=
  ∀ (k : KilnNo) (c : Charge) (x : Schedule) (ph : Phase) (h : HoldReason) (s : State),
    s.retention.phase = .running → Holds s k c x → c.state = .held ph h → (s.kiln k).timer = true →
    let kl := s.kiln k
    let age := min 65535 (kl.age + 1)
    let turnsStale := !kl.stale && decide (s.param 4 ≤ age)
    let stale := kl.stale || turnsStale
    let hot := !stale && match kl.report.bind fun rep => rep.cores.min? with
      | some v => decide ((s.param 5 : Int) ≤ v)
      | none => false
    let certifies := !c.flags.htCertified && hot && decide (s.param 6 ≤ c.htAccrual + 1)
    let charts := decide (s.param 7 ≤ kl.chart + 1)
    let m : Kiln := { kl with age := age, stale := stale }
    let record (kind : TraceKind) : TraceRecord := recordOf s.clock k c.id c.controlling m kind .held
    let records : List TraceRecord :=
      (if turnsStale then [record .staleOn] else []) ++ (if certifies then [record .ht] else []) ++
        (if charts then [record .chart] else [])
    ∃ t, exec (.kilnMinuteExpiry k) s = .next t ∧
      t.kiln k = { m with chart := if charts then 0 else kl.chart + 1 } ∧
      t.charge c.id = some (if c.flags.htCertified then c else if hot then { c with
          htAccrual := c.htAccrual + 1
          flags := { c.flags with htCertified := decide (s.param 6 ≤ c.htAccrual + 1) } }
        else { c with htAccrual := 0 }) ∧
      (s.trace.Clear 3 → t.trace = s.trace.after records ∧
        Raises s t ((if turnsStale then 0x000020 else 0) ||| (if certifies then 0x000100 else 0)) records.length) ∧
      (∀ j, j ≠ k → t.kiln j = s.kiln j) ∧ (∀ id, id ≠ c.id → t.charge id = s.charge id) ∧
      t.charges.lastId = s.charges.lastId ∧ t.charges.entries.map Charge.id = s.charges.entries.map Charge.id ∧
      (∀ q, { t.port q with pending := (s.port q).pending } = s.port q) ∧
      t = { s with ports := t.ports, charges := t.charges, kilns := t.kilns, trace := t.trace }

/-- A minute in an active phase (R76, R79 to R90, R188): the report ages, the minute is counted, the deviation state moves,
the setpoint ramps, heat treatment accrues, the overtime flag is set, and then at most one change of step or phase is made, by
the trigger on the record as the parts before it have left it; the chart runs while the timer still does. Each part's alerts
and trace records follow in the order of the parts: STALE_ON and the deviation record show the kiln before the ramp, HT after
it, PHASE and CHART after the change (log 32); they are given while the log is clear of a wrap. -/
def Obligations.ActiveMinuteCountsRampsAndTriggers : Prop :=
  ∀ (k : KilnNo) (c : Charge) (x : Schedule) (ph : Phase) (tg : KilnTarget) (s : State),
    s.retention.phase = .running → Holds s k c x → c.state = .active ph → (s.kiln k).timer = true →
    (s.kiln k).target = some tg →
    let kl := s.kiln k
    let age := min 65535 (kl.age + 1)
    let turnsStale := !kl.stale && decide (s.param 4 ≤ age)
    let stale := kl.stale || turnsStale
    let inTolerance := match kl.report with
      | some rep => rep.dry.valid && decide ((rep.dry.value - kl.dry).natAbs ≤ s.param 1)
      | none => false
    let on := !stale && (decide (ph = .cooling) || inTolerance)
    let onRun := if on then min 65535 (kl.onRun + 1) else 0
    let offRun := if on then 0 else min 65535 (kl.offRun + 1)
    let stepOn := if on && decide (ph = .drying) then min 65535 (kl.stepOn + 1) else kl.stepOn
    let deviation := match kl.deviation with
      | .inBand => if s.param 2 ≤ offRun then .deviating else .inBand
      | .deviating => if s.param 3 ≤ onRun then .inBand else .deviating
    let dry := (rampMinute kl.dry tg.dry kl.accumulator x.ramp).1
    let hot := !stale && match kl.report.bind fun rep => rep.cores.min? with
      | some v => decide ((s.param 5 : Int) ≤ v)
      | none => false
    let certifies := !c.flags.htCertified && hot && decide (s.param 6 ≤ c.htAccrual + 1)
    let turnsOvertime := !kl.overtime && match x.steps with
      | .moisture l => match l[kl.step - 1]? with
        | some st => decide (ph = .drying) && st.maxOn != 0 && decide (st.maxOn < stepOn)
        | none => false
      | .time _ => false
    let d : Charge := if c.flags.htCertified then c else if hot then { c with
        htAccrual := c.htAccrual + 1
        flags := { c.flags with htCertified := decide (s.param 6 ≤ c.htAccrual + 1) } }
      else { c with htAccrual := 0 }
    let m : Kiln := { kl with
      age := age, stale := stale, onRun := onRun, offRun := offRun, stepOn := stepOn
      phaseOn := if on then min 65535 (kl.phaseOn + 1) else kl.phaseOn
      deviation := deviation
      dry := dry, wet := dry - tg.depression, accumulator := (rampMinute kl.dry tg.dry kl.accumulator x.ramp).2
      overtime := kl.overtime || turnsOvertime }
    let ends := (phaseTrigger ph x m c).isSome
    let change := nextChange x ph kl.step
    let after : Kiln := if ends then change.kiln x m else m
    let state : ChargeState := if ends then change.chargeState (.active ph) else .active ph
    let charts := after.timer && decide (s.param 7 ≤ after.chart + 1)
    let record (u : Kiln) (kind : TraceKind) (st : StateName) : TraceRecord :=
      recordOf s.clock k c.id c.controlling { u with stale := stale } kind st
    let records : List TraceRecord :=
      (if turnsStale then [record kl .staleOn ph.name] else []) ++
      (if deviation = kl.deviation then []
        else [record kl (if deviation = .deviating then .deviationOn else .deviationOff) ph.name]) ++
      (if certifies then [record m .ht ph.name] else []) ++ (if ends then [record after .phase state.name] else []) ++
      (if charts then [record after .chart state.name] else [])
    ∃ t, exec (.kilnMinuteExpiry k) s = .next t ∧
      t.kiln k = (if after.timer then { after with chart := if charts then 0 else after.chart + 1 } else after) ∧
      t.charge c.id = some { d with
        state := state
        flags := { d.flags with eqTimeout := d.flags.eqTimeout || decide (phaseTrigger ph x m c = some true) } } ∧
      (ends = true → change = .dried → ∀ n, c.schedule = some n →
        t.library = { s.library with inUse := s.library.inUse.set (slot1 15 n) (s.inUse n - 1) }) ∧
      (ends = false ∨ change ≠ .dried → t.library = s.library) ∧
      (s.trace.Clear 5 → t.trace = s.trace.after records ∧
        Raises s t ((if turnsStale then 0x000020 else 0) ||| (if deviation = kl.deviation then 0 else 0x000010) |||
          (if certifies then 0x000100 else 0) ||| (if turnsOvertime then 0x000080 else 0) |||
          (if ends then 0x000008 else 0)) records.length) ∧
      (∀ j, j ≠ k → t.kiln j = s.kiln j) ∧ (∀ id, id ≠ c.id → t.charge id = s.charge id) ∧
      t.charges.lastId = s.charges.lastId ∧ t.charges.entries.map Charge.id = s.charges.entries.map Charge.id ∧
      (∀ q, { t.port q with pending := (s.port q).pending } = s.port q) ∧
      t = { s with ports := t.ports, charges := t.charges, kilns := t.kilns, library := t.library, trace := t.trace }

/-- What ends a step or phase (R86, R88, R89): the triggers of MOISTURE and TIME steps, the two conditions of equalizing, of
which the first decides, the conditioning minutes, and the two conditions of cooling. -/
def Obligations.TriggersEndStepsAndPhases : Prop :=
  ∀ (x : Schedule) (kl : Kiln) (c : Charge),
    (∀ l st, x.steps = .moisture l → l[kl.step - 1]? = some st →
      (phaseTrigger .drying x kl c = some false ↔ (∃ mc, c.controlling = some mc ∧ mc ≤ st.threshold) ∧ st.minOn ≤ kl.stepOn) ∧
      phaseTrigger .drying x kl c ≠ some true) ∧
    (∀ l st, x.steps = .time l → l[kl.step - 1]? = some st →
      (phaseTrigger .drying x kl c = some false ↔ st.duration ≤ kl.stepOn) ∧ phaseTrigger .drying x kl c ≠ some true) ∧
    (∀ e tg, x.equalize = some e → c.finalTarget = some tg →
      (phaseTrigger .equalizing x kl c = some false ↔ ∃ mc, c.wettest = some mc ∧ mc ≤ tg + e.band) ∧
      (phaseTrigger .equalizing x kl c = some true ↔
        (∀ mc, c.wettest = some mc → tg + e.band < mc) ∧ e.maxOn ≤ kl.phaseOn)) ∧
    (∀ e, x.conditioning = some e →
      (phaseTrigger .conditioning x kl c = some false ↔ e.minutes ≤ kl.phaseOn) ∧
      phaseTrigger .conditioning x kl c ≠ some true) ∧
    (phaseTrigger .cooling x kl c = some false ↔ x.coolMax ≤ kl.phaseOn ∨
      (kl.stale = false ∧ ∃ rep, kl.report = some rep ∧ rep.cores ≠ [] ∧ ∀ v ∈ rep.cores, v ≤ (x.coolEnd : Int))) ∧
    phaseTrigger .cooling x kl c ≠ some true

/-- The setpoint ramp (R108): at the target the accumulator is 0, without a limit the setpoint jumps, otherwise it moves by
the accumulated sixtieths; and over `n` minutes of an unbroken ramp it has moved by n × R ÷ 60, rounded down. -/
def Obligations.RampMovesByTheAccumulatedSixtieths : Prop :=
  (∀ sp tg a rate : Nat, a ≤ 59 → rate ≤ 200 →
    (sp = tg → rampMinute sp tg a rate = (tg, 0)) ∧
    (sp ≠ tg → rate = 0 → rampMinute sp tg a rate = (tg, 0)) ∧
    (sp < tg → 1 ≤ rate → sp + (a + rate) / 60 < tg →
      rampMinute sp tg a rate = (sp + (a + rate) / 60, (a + rate) % 60)) ∧
    (tg < sp → 1 ≤ rate → tg + (a + rate) / 60 < sp →
      rampMinute sp tg a rate = (sp - (a + rate) / 60, (a + rate) % 60)) ∧
    (sp ≠ tg → 1 ≤ rate → tg ≤ sp + (a + rate) / 60 → sp ≤ tg + (a + rate) / 60 → rampMinute sp tg a rate = (tg, 0))) ∧
  ∀ sp tg rate n : Nat, 1 ≤ rate → rate ≤ 200 →
    let minute := fun q : Nat × Nat => rampMinute q.1 tg q.2 rate
    (sp + n * rate / 60 < tg → (minute^[n]) (sp, 0) = (sp + n * rate / 60, n * rate % 60)) ∧
    (tg + n * rate / 60 < sp → (minute^[n]) (sp, 0) = (sp - n * rate / 60, n * rate % 60))

/-! ## Queries, the trace log and the mill clock (chapters 5, 7 to 12) -/

/-- KILN STATUS, TRACE READ, LOT QUERY, PACK QUERY, PRINTER STATUS and RUN STATUS answer DONE with the items their rules list,
in that order, as the state stands, and change nothing, but that the summary form of RUN STATUS clears the three sticky flags
it has shown; a record that is absent is NO_SUCH; and what the bodies of TRACE READ, RUN STATUS and PACK QUERY are read as
(R97, R139, R140, R150, R167, R168, R184, R186 to R188, R190). Model's choices: the bytes of absent items and of two packed
items are free values, and an absent item takes the width of a present one (logs 6, 8, 9); RUN STATUS with no run sends the
items of section 7.8 that need no run alone, and its last summary as absent items where there is none (logs 6 and 29, DEDUCED,
unsafe); what KILN STATUS sends for an EMPTY kiln (log 33, DEDUCED, unsafe); and each valid flag following its own actual is
the model's reading of R97 (log 37). -/
def Obligations.QueriesReportTheStateAsItStands : Prop :=
  (∀ rest : List Byte,
    (∀ first n, 1 ≤ first → first ≤ 4294967295 → 1 ≤ n → n ≤ 8 →
      readTraceRead (beBytes 4 first ++ beBytes 1 n ++ rest) = .ok (first, n)) ∧
    readRunForm (beBytes 1 0 ++ rest) = .ok .summary ∧ readRunForm (beBytes 1 3 ++ rest) = .ok .sortMap ∧
    (∀ first, 1 ≤ first → first ≤ 48 →
      readRunForm (beBytes 1 1 ++ beBytes 1 first ++ rest) = .ok (.queueA first) ∧
      readRunForm (beBytes 1 2 ++ beBytes 1 first ++ rest) = .ok (.queueB first)) ∧
    (∀ id, 1 ≤ id → id ≤ 65535 → readPackForm (beBytes 1 0 ++ beBytes 2 id ++ rest) = .ok (.single id)) ∧
    readPackForm (beBytes 1 1 ++ rest) = .ok .listing ∧ readPackForm (beBytes 1 2 ++ rest) = .ok .bins) ∧
  ∀ (p : Port) (r : Request) (s : State),
    let counts (n : RunCounters) : List Field :=
      [.num 4 n.boardsIn, .num 4 n.packed, .num 4 n.redry, .num 4 n.rejected, .num 4 n.lost, .num 4 n.unmetered]
    (∀ k, Offers s p 0x36 r → readKilnOnly r.body = .ok k →
      let kl := s.kiln k
      let record (steps : Nat) : List Field :=
        [.num 1 kl.step, .num 1 steps, .num 2 kl.dry, .num 2 kl.wet,
          .num 2 (match kl.target with | some t => t.dry | none => 0),
          .num 2 (match kl.target with | some t => t.depression | none => 0),
          .num 2 kl.stepOn, .num 2 kl.phaseOn, .sym (.deviation kl.deviation), .flag kl.overtime, .flag kl.stale,
          .num 2 kl.age] ++
        match kl.report with
          | some rep => [.int 2 rep.dry.value, .flag rep.dry.valid, .int 2 rep.wet.value, .flag rep.wet.valid,
              .num 1 rep.cores.length] ++ rep.cores.map (.int 2)
          | none => [.absent 2, .absent 1, .absent 2, .absent 1, .absent 1]
      (kl.link = none → exec (.kilnStatus p) s = .next (s.done p r
        ([.num 1 (k.val + 1), .sym (.state .empty), .num 2 0, .absent 1, .absent 1] ++ record 0 ++
          [.absent 2, .absent 2, .absent 1, .absent 1]))) ∧
      (∀ c, kl.link = some c.id → s.charge c.id = some c → exec (.kilnStatus p) s = .next (s.done p r
        ([.num 1 (k.val + 1), .sym (.state c.state.name), .num 2 c.id] ++
          (match c.state with
            | .held ph h => [.sym (.phase ph), .sym (.holdReason h)]
            | _ => [.absent 1, .absent 1]) ++
          record (if c.state = .dried then 0
            else match c.schedule.bind s.schedule with | some x => x.steps.count | none => 0) ++
          [optNum 2 c.controlling, optNum 2 c.wettest, .num 1 c.htAccrual, .flag c.flags.htCertified])))) ∧
    (∀ first n, Offers s p 0x80 r → readTraceRead r.body = .ok (first, n) →
      let oldest := match s.trace.ring with
        | y :: _ => if s.trace.next = 1 then y.seq else s.trace.next - s.trace.ring.length
        | [] => s.trace.next
      let l := (s.trace.ring.dropWhile fun y => decide (y.seq < first)).take n
      (oldest ≤ first → exec (.traceRead p) s = .next (s.done p r
        ([.num 4 oldest, .num 4 s.trace.next, .num 1 l.length] ++ l.flatMap fun y =>
          [.num 4 y.seq, .num 4 (y.time.getD 0),
            .traceFlags ⟨y.time.isSome, y.dryActual.isSome, y.wetActual.isSome, y.controlling.isSome, y.minCore.isSome⟩,
            .num 1 (y.kiln.val + 1), .num 2 y.charge, .sym (.trace y.kind), .sym (.state y.state), .num 1 y.step,
            .num 2 y.dry, .num 2 y.wet, .int 2 (y.dryActual.getD 0), .int 2 (y.wetActual.getD 0),
            .num 2 (y.controlling.getD 0), .int 2 (y.minCore.getD 0)]))) ∧
      (first < oldest → exec (.traceRead p) s = .next (s.refusedWith p r (.noSuchSequence oldest)))) ∧
    (∀ n, Offers s p 0x52 r → readOne 1 0 255 r.body = .ok n →
      (n = 0 → exec (.lotQuery p) s = .next (s.done p r
        ([.num 1 s.lots.lots.length, .num 1 (4 - s.lots.lots.length), .num 1 s.lots.last] ++
          s.lots.lots.flatMap fun y =>
            [.num 1 y.number, .sym (.lot y.state), .num 1 y.species, .num 1 y.thickness, .num 2 y.pieces]))) ∧
      (∀ y, n ≠ 0 → s.lot n = some y → exec (.lotQuery p) s = .next (s.done p r
        ([.num 1 y.number, .sym (.lot y.state), .num 1 y.species, .num 1 y.thickness, .num 2 y.pieces, .num 4 y.volume,
          .num 1 y.contributors.length] ++ (y.contributors.flatMap fun c => [.num 2 c.charge, .num 2 c.pieces]) ++
          [.num 2 y.other]))) ∧
      (n ≠ 0 → s.lot n = none → exec (.lotQuery p) s = .next (s.refusedWith p r .noSuch))) ∧
    (Offers s p 0x63 r →
      (∀ id q, readPackForm r.body = .ok (.single id) → s.pack id = some q →
        exec (.packQuery p) s = .next (s.done p r
          ([.num 2 q.id, .num 1 q.bin, .sym (.pack q.state), .num 1 q.key.species, .num 1 q.key.thickness,
            .num 2 q.key.width, .num 1 q.key.grade, .num 1 q.key.band,
            (match q.cause with | some y => .sym (.closeCause y) | none => .absent 1), .flag q.short, .num 2 q.pieces,
            .num 4 q.volume, .num 1 q.contributors.length] ++
            (q.contributors.flatMap fun c => [.num 2 c.charge, .num 2 c.pieces]) ++
            [.num 2 q.other, .num 2 q.metered, .num 4 q.mcSum, optNum 2 q.mcMin, optNum 2 q.mcMax, .num 2 q.overdry,
              .num 2 q.unmetered, optNum 4 q.openedAt, optNum 4 q.closedAt, optNum 4 q.serial, .num 1 q.reprints,
              .num 1 (match s.packs.closeList.idxOf? q.id with | some i => i + 1 | none => 0)]))) ∧
      (∀ id, readPackForm r.body = .ok (.single id) → s.pack id = none →
        exec (.packQuery p) s = .next (s.refusedWith p r .noSuch)) ∧
      (readPackForm r.body = .ok .listing → exec (.packQuery p) s = .next (s.done p r
        ([.num 1 s.packs.packs.length, .num 2 s.packs.lastId, .flag s.packs.blocked] ++
          (s.packs.packs.flatMap fun q => [.num 2 q.id, .binState q.bin q.state]) ++
          .num 1 s.packs.closeList.length :: s.packs.closeList.map (.num 2)))) ∧
      (readPackForm r.body = .ok .bins →
        exec (.packQuery p) s = .next (s.done p r ((List.range 20).flatMap fun i =>
          [.num 1 (match s.target (i + 1) with | .pieces _ => 1 | .volume _ => 2),
            .num 4 (match s.target (i + 1) with | .pieces v => v | .volume v => v),
            .num 2 (match s.openPack (i + 1) with | some q => q.id | none => 0),
            .num 2 (match s.openPack (i + 1) with | some q => q.pieces | none => 0)])))) ∧
    (Offers s p 0x73 r → exec (.printerStatus p) s = .next (s.done p r
      ([.sym (.engine s.label.state), optField 1 (fun h => .sym (.halt h)) s.label.halt, .flag s.label.haltPending,
        optNum 1 s.label.field, .num 4 s.label.lastSerial] ++
        (match s.label.lastVerify with | some bs => bs.map Field.byte | none => [.absent 3]) ++
        .num 1 s.label.queue.length :: s.label.queue.flatMap fun (j : Job) =>
          [Field.sym (.job j.kind), .num 2 j.pack, optNum 4 j.serial]))) ∧
    (Offers s p 0x49 r →
      let last : List Field := .num 2 s.tracker.stray :: match s.tracker.summary with
        | some y => [.num 1 y.number, .sym (.ended y.ended)] ++ counts y.counters
        | none => [.absent 1, .absent 1, .absent 4, .absent 4, .absent 4, .absent 4, .absent 4, .absent 4]
      let listed (queue : List Board) (first : Nat) : List Field :=
        let l := (queue.drop (first - 1)).take 32
        [.num 1 queue.length, .num 1 first, .num 1 l.length] ++ l.flatMap fun b =>
          [.num 2 b.seq, .num 2 b.charge, optNum 2 b.reading, .flag b.saturated,
            match b.cls with | some y => .sym (.boardClass y) | none => .absent 1]
      (∀ n, readRunForm r.body = .ok .summary → s.tracker.run = some n →
        let shown : List Field :=
          [.sym (.run (match n.state with | .isOpen => .isOpen | .draining => .draining)), .num 1 n.number,
            .num 1 n.species, .num 1 n.thickness, .num 1 n.wetBand, .num 1 n.dryBand,
            .num 1 (match n.policy with | .redry => 1 | .accept => 2), .num 1 n.sources.length] ++
          n.sources.map (.num 2) ++ [.num 2 n.nextSeq, .num 1 n.queueA.length, .num 1 n.queueB.length] ++
          counts n.counters ++ [.flag n.aOverrun, .flag n.aUnderrun, .flag n.bOverrun, .sym (.meter n.meter),
            .num 1 n.voidRun, .num 1 (n.history.count true), .num 1 n.history.length] ++ last
        exec (.runStatus p) s = .next (({ s with
          tracker := { s.tracker with
            run := some { n with aOverrun := false, aUnderrun := false, bOverrun := false } } }).done p r shown)) ∧
      (readRunForm r.body = .ok .summary → s.tracker.run = none → exec (.runStatus p) s = .next (s.done p r
        (.sym (.run .none) :: last))) ∧
      (∀ first, readRunForm r.body = .ok (.queueA first) → exec (.runStatus p) s = .next (s.done p r
        (listed (match s.tracker.run with | some n => n.queueA | none => []) first))) ∧
      (∀ first, readRunForm r.body = .ok (.queueB first) → exec (.runStatus p) s = .next (s.done p r
        (listed (match s.tracker.run with | some n => n.queueB | none => []) first))) ∧
      (readRunForm r.body = .ok .sortMap → exec (.runStatus p) s = .next (s.done p r
        (.num 1 s.tracker.sortMap.length :: s.tracker.sortMap.flatMap fun e =>
          [.num 1 e.grade, .num 2 e.width, .num 1 e.band, .num 1 e.bin]))))

/-- A trace write (R187, R188, R191): the record receives the next sequence and is the newest, the oldest of 2048 is
discarded, a mark that is reached becomes absent with TRACE_MARK, and after a wrap the ring is emptied first and a mark
becomes absent without it. SET TRACE MARK (R191) clears, fires or sets the mark. That an absent mark is sent in the four bytes
of a present one, its bytes free, is the model's choice (log 6, DESIGN CHOICE, unsafe in the width). -/
def Obligations.TraceWritesAndTheMark : Prop :=
  (∀ (k : KilnNo) (id : Nat) (kind : TraceKind) (s : State),
    let x := s.traceRecord k id kind
    let reached := ∃ m, s.trace.mark = some m ∧ m ≤ s.trace.next
    x.seq = s.trace.next ∧ x.kiln = k ∧ x.charge = id ∧ x.kind = kind ∧
    x.time = (if s.clock.isSet then some s.clock.minutes else none) ∧ x.step = (s.kiln k).step ∧
    x.dry = (s.kiln k).dry ∧ x.wet = (s.kiln k).wet ∧
    ((s.kiln k).stale = true ∨ (s.kiln k).report = none → x.dryActual = none ∧ x.wetActual = none ∧ x.minCore = none) ∧
    (s.trace.next ≠ 1 ∨ s.trace.ring = [] →
      (s.writeTrace k id kind).trace.ring =
        (if 2048 ≤ s.trace.ring.length then s.trace.ring.drop 1 else s.trace.ring) ++ [x] ∧
      (s.writeTrace k id kind).trace.next = (if s.trace.next < 4294967295 then s.trace.next + 1 else 1) ∧
      (reached → (s.writeTrace k id kind).trace.mark = none ∧
        s.writeTrace k id kind = (s.withTrace (s.writeTrace k id kind).trace).raiseAll .traceMark) ∧
      (¬reached → (s.writeTrace k id kind).trace.mark = s.trace.mark ∧
        s.writeTrace k id kind = s.withTrace (s.writeTrace k id kind).trace)) ∧
    (s.trace.next = 1 → s.trace.ring ≠ [] →
      s.writeTrace k id kind = s.withTrace { ring := [x], next := 2, mark := none })) ∧
  ∀ (p : Port) (r : Request) (n : Nat) (s : State), Offers s p 0x81 r → readOne 4 0 4294967295 r.body = .ok n →
    (n = 0 → exec (.setTraceMark p) s = .next ((s.withTrace { s.trace with mark := none }).done p r
      [optNum 4 s.trace.mark, .absent 4, .flag false, .num 4 s.trace.next])) ∧
    (1 ≤ n → n < s.trace.next → exec (.setTraceMark p) s =
      .next (((s.withTrace { s.trace with mark := none }).raiseAll .traceMark).done p r
        [optNum 4 s.trace.mark, .absent 4, .flag true, .num 4 s.trace.next])) ∧
    (1 ≤ n → s.trace.next ≤ n → exec (.setTraceMark p) s = .next ((s.withTrace { s.trace with mark := some n }).done p r
      [optNum 4 s.trace.mark, .num 4 n, .flag false, .num 4 s.trace.next]))

/-- SET CLOCK sets the count from a date and time; a minute of the clock raises a set count, in every power phase (log 18),
and leaves an unset one (R192, R193); and the date a label prints for the count is the date that was set (R175). -/
def Obligations.ClockCountsMinutesOfTheCalendar : Prop :=
  (∀ (p : Port) (r : Request) (d : DateTime) (s : State), Offers s p 0x82 r → readSetClock r.body = .ok d →
    exec (.setClock p) s = .next (({ s with clock := ⟨minutesOf d, true⟩ }).done p r
      [.num 4 s.clock.minutes, .flag s.clock.isSet, .num 4 (minutesOf d)])) ∧
  (∀ s : State,
    (s.clock.isSet = true → exec .millClockMinute s = .next { s with
      clock := ⟨min 4294967295 (s.clock.minutes + 1), true⟩ }) ∧
    (s.clock.isSet = false → exec .millClockMinute s = .next s)) ∧
  ∀ d : DateTime, 2000 ≤ d.year → d.year ≤ 2199 → 1 ≤ d.month → d.month ≤ 12 → 1 ≤ d.day →
    d.day ≤ monthDays d.year d.month → d.hour ≤ 23 → d.minute ≤ 59 → dateOf (minutesOf d) = d

/-! ## The planer tracker (chapters 6 and 7) -/

/-- OPEN RUN, ADD SOURCE, ADVANCE SOURCE, CLOSE RUN and ABORT RUN at their takes (R118, R121 to R124, R126): the run record,
the charges that enter or leave PLANING, and the last run summary; and the refusals of each in the order of its rule. -/
def Obligations.RunRequestsComplete : Prop :=
  ∀ (p : Port) (r : Request) (s : State), Owns s p .planer →
    let noneOpen : Prop := ∀ n, s.tracker.run = some n → n.state = .draining
    (∀ q, Offers s p 0x40 r → readOpenRun r.body = .ok q →
      (s.tracker.run ≠ none → exec (.openRun p) s = .next (s.refusedWith p r .badState)) ∧
      (s.tracker.run = none → s.charge q.charge = none → exec (.openRun p) s = .next (s.refusedWith p r .noSuch)) ∧
      (∀ c, s.tracker.run = none → s.charge q.charge = some c → c.state ≠ .released →
        exec (.openRun p) s = .next (s.refusedWith p r .badState))) ∧
    (∀ id, Offers s p 0x41 r → readOne 2 1 65535 r.body = .ok id →
      let refused (e : Reason) : Prop := exec (.addSource p) s = .next (s.refusedWith p r e)
      (noneOpen → refused .badState) ∧
      ∀ n, s.tracker.run = some n → n.state = .isOpen →
        (3 ≤ n.sources.length → refused .tableFull) ∧
        (n.sources.length < 3 → s.charge id = none → refused .noSuch) ∧
        (∀ c, n.sources.length < 3 → s.charge id = some c → c.state ≠ .released → refused .badState) ∧
        (∀ c, n.sources.length < 3 → s.charge id = some c → c.state = .released →
          c.species ≠ n.species ∨ c.thickness ≠ n.thickness → refused .mismatch)) ∧
    (Offers s p 0x42 r → noneOpen ∨ (∃ n, s.tracker.run = some n ∧ n.state = .isOpen ∧ n.sources.length < 2) →
      exec (.advanceSource p) s = .next (s.refusedWith p r .badState)) ∧
    (Offers s p 0x43 r → noneOpen → exec (.closeRun p) s = .next (s.refusedWith p r .badState)) ∧
    (Offers s p 0x44 r → s.tracker.run = none → exec (.abortRun p) s = .next (s.refusedWith p r .badState)) ∧
    (∀ q c, Offers s p 0x40 r → readOpenRun r.body = .ok q → s.tracker.run = none → s.charge q.charge = some c →
      c.state = .released →
      let n : Run := {
        number := if s.tracker.lastRun < 255 then s.tracker.lastRun + 1 else 1
        state := .isOpen, species := c.species, thickness := c.thickness
        wetBand := if q.wetBand = 255 then s.param 8 else q.wetBand
        dryBand := if q.dryBand = 255 then s.param 9 else q.dryBand
        policy := if (if q.policy = 0 then s.param 10 else q.policy) = 2 then .accept else .redry
        sources := [c.id], nextSeq := 1, queueA := [], queueB := [], counters := ⟨0, 0, 0, 0, 0, 0⟩
        aOverrun := false, aUnderrun := false, bOverrun := false, meter := .ok, voidRun := 0, history := [] }
      exec (.openRun p) s = .next (({ s with
        tracker := { s.tracker with run := some n, lastRun := n.number }
        charges := { s.charges with
          entries := keyModify Charge.id c.id (fun c => { c with state := .planing }) s.charges.entries } }).done p r
          [.num 1 n.number, .num 1 n.species, .num 1 n.thickness, .num 1 n.wetBand, .num 1 n.dryBand,
            .num 1 (match n.policy with | .redry => 1 | .accept => 2)])) ∧
    (∀ id c n, Offers s p 0x41 r → readOne 2 1 65535 r.body = .ok id → s.tracker.run = some n → n.state = .isOpen →
      n.sources.length < 3 → s.charge id = some c → c.state = .released → c.species = n.species → c.thickness = n.thickness →
      exec (.addSource p) s = .next (({ s with
        tracker := { s.tracker with run := some { n with sources := n.sources ++ [id] } }
        charges := { s.charges with
          entries := keyModify Charge.id id (fun c =>
            { c with state := .planing, stats := { c.stats with inFlight := 0 } }) s.charges.entries } }).done p r
          (.num 1 (n.sources.length + 1) :: (n.sources ++ [id]).map (.num 2)))) ∧
    (∀ n old head rest c, Offers s p 0x42 r → s.tracker.run = some n → n.state = .isOpen → n.sources = old :: head :: rest →
      old ∉ head :: rest → s.charge old = some c →
      let d := if c.state = .planing ∧ c.stats.inFlight = 0 then { c with state := .planed } else c
      ∃ t : State, exec (.advanceSource p) s = .next (t.done p r
          [.num 2 old, .sym (.state d.state.name), .num 1 d.stats.inFlight, .num 2 head]) ∧
        t.charge old = some d ∧ (∀ id, id ≠ old → t.charge id = s.charge id) ∧
        t.charges.lastId = s.charges.lastId ∧ t.charges.entries.map Charge.id = s.charges.entries.map Charge.id ∧
        t = { s with
          tracker := { s.tracker with run := some { n with sources := head :: rest } }, charges := t.charges }) ∧
    (∀ n, Offers s p 0x43 r → s.tracker.run = some n → n.state = .isOpen →
      let counts : List Field := [.num 4 n.counters.boardsIn, .num 4 n.counters.packed, .num 4 n.counters.redry,
        .num 4 n.counters.rejected, .num 4 n.counters.lost, .num 4 n.counters.unmetered]
      (n.queueA = [] → n.queueB = [] → exec (.closeRun p) s = .next (({ s with
        tracker := { s.tracker with run := none, summary := some ⟨n.number, .closed, n.counters⟩ }
        charges := { s.charges with entries := s.charges.entries.map fun (c : Charge) =>
          if c.id ∈ n.sources ∧ c.state = ChargeState.planing then { c with state := ChargeState.planed } else c } }).done p r
          ([Field.num 1 n.number, Field.sym (.ended .closed)] ++ counts ++ [Field.flag true]))) ∧
      (n.queueA ≠ [] ∨ n.queueB ≠ [] → exec (.closeRun p) s = .next (({ s with
        tracker := { s.tracker with run := some { n with state := .draining, sources := [] } }
        charges := { s.charges with entries := s.charges.entries.map fun (c : Charge) =>
          if c.id ∈ n.sources ∧ c.state = ChargeState.planing ∧ c.stats.inFlight = 0 then
            { c with state := ChargeState.planed } else c } }).done p r
          (Field.num 1 n.number :: counts ++ [Field.flag false])))) ∧
    (∀ n, Offers s p 0x44 r → s.tracker.run = some n →
      let lost := min 4294967295 (n.counters.lost + (n.queueA.length + n.queueB.length))
      exec (.abortRun p) s = .next (({ s with
        tracker := { s.tracker with run := none, summary := some ⟨n.number, .aborted, { n.counters with lost := lost }⟩ }
        charges := { s.charges with entries := s.charges.entries.map fun (c : Charge) =>
          if (c.id ∈ n.sources ∨ (∃ b ∈ n.queueA, b.charge = c.id) ∨ ∃ b ∈ n.queueB, b.charge = c.id) ∧
            c.state = ChargeState.planing
            then { c with state := ChargeState.released, stats := { c.stats with inFlight := 0 } } else c } }).done p r
        [.num 1 n.number, .sym (.ended .aborted), .num 4 n.counters.boardsIn, .num 4 n.counters.packed,
          .num 4 n.counters.redry, .num 4 n.counters.rejected, .num 4 lost, .num 4 n.counters.unmetered]))

/-- PUT SORT ENTRY, REMOVE SORT ENTRY and CLEAR SORT MAP (R137, R138). -/
def Obligations.SortMapRequestsComplete : Prop :=
  ∀ (p : Port) (r : Request) (s : State), Owns s p .planer →
    let withMap (l : List SortEntry) : State := { s with tracker := { s.tracker with sortMap := l } }
    (∀ e, Offers s p 0x46 r → readSortEntry r.body = .ok e →
      let answer (old : Nat) : List Field := [.num 1 e.grade, .num 2 e.width, .num 1 e.band, .num 1 e.bin, .num 1 old]
      (∀ bin, s.tracker.binOf e.grade e.width e.band = some bin → exec (.putSortEntry p) s =
        .next ((withMap (keyPut SortEntry.key e s.tracker.sortMap)).done p r (answer bin))) ∧
      (s.tracker.binOf e.grade e.width e.band = none → s.tracker.sortMap.length < 48 → exec (.putSortEntry p) s =
        .next ((withMap (keyPut SortEntry.key e s.tracker.sortMap)).done p r (answer 0))) ∧
      (s.tracker.binOf e.grade e.width e.band = none → 48 ≤ s.tracker.sortMap.length →
        exec (.putSortEntry p) s = .next (s.refusedWith p r .tableFull))) ∧
    (∀ g w b, Offers s p 0x47 r → readSortKeyOnly r.body = .ok (g, w, b) →
      (∀ bin, s.tracker.binOf g w b = some bin → exec (.removeSortEntry p) s =
        .next ((withMap (s.tracker.sortMap.filter fun e => !(e.grade == g && e.width == w && e.band == b))).done p r
          [.num 1 g, .num 2 w, .num 1 b, .num 1 bin])) ∧
      (s.tracker.binOf g w b = none → exec (.removeSortEntry p) s = .next (s.refusedWith p r .noSuch))) ∧
    (Offers s p 0x48 r →
      exec (.clearSortMap p) s = .next ((withMap []).done p r [.num 1 s.tracker.sortMap.length]))

/-- The eye (R120, R127, R128): a rise of the filtered level with a run OPEN appends a board of the head source to queue A,
the oldest of a full queue A moving first to queue B without a reading, for which the oldest of a full queue B is dispatched
as lost; with no run OPEN it is a stray; a fall, or a level that is high already (log 35), has no effect on boards. -/
def Obligations.EyeEdgesTrackOrStray : Prop :=
  ∀ s : State, s.retention.phase = .running →
    exec .eyeFilteredFall s = .next { s with tracker := { s.tracker with eye := false } } ∧
    (s.tracker.eye = true → exec .eyeEdge s = .next s) ∧
    (s.tracker.eye = false → s.tracker.run = none ∨ (∃ n, s.tracker.run = some n ∧ n.state = .draining) →
      exec .eyeEdge s = .next ({ s with
        tracker := { s.tracker with eye := true, stray := min 65535 (s.tracker.stray + 1) } }.raiseAll .strayBoard)) ∧
    (∀ n head rest, s.tracker.eye = false → s.tracker.run = some n → n.state = .isOpen → n.sources = head :: rest →
      let board : Board := ⟨n.nextSeq, head, none, false, none⟩
      let charges := { s.charges with
        entries := keyModify Charge.id head (fun c =>
          { c with stats := { c.stats with inFlight := c.stats.inFlight + 1 } }) s.charges.entries }
      let m := { n with
        nextSeq := if n.nextSeq < 65535 then n.nextSeq + 1 else 1
        counters := { n.counters with boardsIn := min 4294967295 (n.counters.boardsIn + 1) } }
      (n.queueA.length < 16 → exec .eyeEdge s = .next { s with
        tracker := { s.tracker with eye := true, run := some { m with queueA := n.queueA ++ [board] } }
        charges := charges }) ∧
      (∀ b later, 16 ≤ n.queueA.length → n.queueA = b :: later → n.queueB.length < 48 →
        exec .eyeEdge s = .next ({ s with
          tracker := { s.tracker with
            eye := true
            run := some { m with
              queueA := later ++ [board], aOverrun := true
              queueB := n.queueB ++ [{ b with reading := none, saturated := false, cls := some .noReading }] } }
          charges := charges }.raiseAll .trackOverrun)) ∧
      (∀ o more, 16 ≤ n.queueA.length → n.queueB.length = 48 → n.queueB = o :: more →
        exec .eyeEdge s = exec .eyeEdge (s.loses n o more)))

/-- The meter receiver and its frames (R129 to R131, R110 to R112, R114, R115): how bytes make a frame, what makes it void,
how the meter state moves, and how a frame pairs with the oldest board of queue A, with or without a reading; a full queue B
first loses its oldest board (R120), and the frame then does what it does in the state that leaves. That a METER_FRAME without
four bytes held, an idle timeout with none held and a further byte behind four change nothing is the model's choice (log 35). -/
def Obligations.MeterFramesPairWithTheOldestBoard : Prop :=
  ∀ s : State, s.retention.phase = .running →
    (∀ (b : Byte) (e : Bool), exec (.meterByteReceived b e) s = .next { s with
      tracker := { s.tracker with receiver :=
        if s.tracker.receiver = [] then (if b = 0xA5 then [⟨b, e⟩] else [])
        else if s.tracker.receiver.length < 4 then s.tracker.receiver ++ [⟨b, e⟩] else s.tracker.receiver } }) ∧
    (∀ (b : Byte) (e : Bool), s.tracker.receiver.length ≠ 4 → exec (.meterFrame b e) s = .next s) ∧
    (s.tracker.receiver = [] → exec .meterIdleTimeout s = .next s) ∧
    ∀ (f : Option (Nat × Int)) (c : Instr),
      ((c = .meterIdleTimeout ∧ s.tracker.receiver ≠ [] ∧ f = none) ∨
        ∃ (x hi lo t : MeterByte) (b : Byte) (e : Bool), s.tracker.receiver = [x, hi, lo, t] ∧ c = .meterFrame b e ∧
          f = if hi.byte.toNat * 256 + lo.byte.toNat = 65535 ∨ b ≠ x.byte + hi.byte + lo.byte + t.byte ∨
              x.framingError = true ∨ hi.framingError = true ∨ lo.framingError = true ∨ t.framingError = true ∨ e = true
            then none else some (hi.byte.toNat * 256 + lo.byte.toNat, t.byte.toInt)) →
      (s.tracker.run = none → exec c s = .next { s with tracker := { s.tracker with receiver := [] } }) ∧
      ∀ n, s.tracker.run = some n →
        let seen := n.history ++ [f.isSome]
        let history := if 16 < seen.length then seen.drop 1 else seen
        let voidRun := if f.isSome then 0 else min 255 (n.voidRun + 1)
        let meter := match n.meter with
          | .ok => if f.isSome = false ∧ s.param 13 ≤ voidRun then .lost else .ok
          | .lost => if f.isSome = true ∧ history.reverse.take 3 = [true, true, true] ∧ 8 ≤ history.count true
              then .ok else .lost
        let m : Run := { n with history := history, voidRun := voidRun, meter := meter }
        let withRun (x : Run) : State := { s with tracker := { s.tracker with receiver := [], run := some x } }
        (n.queueA = [] → exec c s = .next (((withRun { m with aUnderrun := true }).raiseIf (meter != n.meter)
          .meterState).raiseAll .trackOverrun)) ∧
        (∀ b rest, n.queueA = b :: rest → n.queueB.length < 48 → f = none ∨ meter = .lost → exec c s =
          .next ((withRun { m with
            queueA := rest
            queueB := n.queueB ++ [{ b with reading := none, saturated := false, cls := some .noReading }] }).raiseIf
              (meter != n.meter) .meterState)) ∧
        (∀ b rest raw temp ch sp tg, n.queueA = b :: rest → n.queueB.length < 48 → f = some (raw, temp) → meter = .ok →
          s.charge b.charge = some ch → s.species ch.species = some sp → ch.finalTarget = some tg →
          let reading := correctedMC sp (min 600 raw) (max (-20) (min 80 temp))
          let cls := classOf tg n.wetBand n.dryBand reading (decide (600 < raw))
          let x := { b with reading := some reading, saturated := decide (600 < raw), cls := some cls }
          let stats := if ch.stats.metered < 65535 then { ch.stats with
              metered := ch.stats.metered + 1
              wet := ch.stats.wet + (if cls = .wet then 1 else 0)
              overdry := ch.stats.overdry + (if cls = .overdry then 1 else 0)
              mcSum := ch.stats.mcSum + reading }
            else ch.stats
          let turns := decide (s.param 12 ≤ stats.metered) && decide (stats.metered * s.param 11 < stats.wet * 1000) &&
            !ch.flags.chargeWet
          exec c s = .next (((({ withRun { m with queueA := rest, queueB := n.queueB ++ [x] } with
            charges := { s.charges with
              entries := keyModify Charge.id b.charge (fun _ =>
                { ch with stats := stats, flags := { ch.flags with chargeWet := ch.flags.chargeWet || turns } })
                s.charges.entries } }).raiseIf (meter != n.meter) .meterState)).raiseIf turns .chargeWet)) ∧
        (∀ o later, n.queueA ≠ [] → n.queueB.length = 48 → n.queueB = o :: later → exec c s = exec c (s.loses n o later))

/-- The figures of a board: the corrected MC with its roundings and limits (R110, R111), the class (R112), the volume (R113)
and the length band (R51), each to the nearest unit with halves up, the temperature term with halves away from zero. -/
def Obligations.BoardFiguresRoundAsStated : Prop :=
  (∀ (sp : Species) (raw : Nat) (t : Int),
    ∃ (scaled term : Int), correctedMC sp raw t = (max 0 (min 600 (scaled + sp.offset - term))).toNat ∧
      2048 * scaled ≤ 2 * (raw * sp.factor) + 1024 ∧ 2 * ((raw * sp.factor : Nat) : Int) + 1024 < 2048 * (scaled + 1) ∧
      (20 ≤ t → 20 * term ≤ 2 * ((t - 20) * sp.coefficient) + 10 ∧ 2 * ((t - 20) * sp.coefficient) + 10 < 20 * (term + 1)) ∧
      (t ≤ 20 → 20 * term ≥ 2 * ((t - 20) * sp.coefficient) - 10 ∧ 2 * ((t - 20) * sp.coefficient) - 10 > 20 * (term - 1))) ∧
  (∀ (tg wet dry reading : Nat) (sat : Bool),
    (classOf tg wet dry reading sat = .wet ↔ sat = true ∨ tg + wet < reading) ∧
    (classOf tg wet dry reading sat = .overdry ↔ sat = false ∧ reading ≤ tg + wet ∧ reading + dry < tg) ∧
    (classOf tg wet dry reading sat = .ok ↔ sat = false ∧ reading ≤ tg + wet ∧ tg ≤ reading + dry)) ∧
  (∀ th w l : Nat, 2000 * boardVolume th w l ≤ 2 * (th * w * l) + 1000 ∧
    2 * (th * w * l) + 1000 < 2000 * (boardVolume th w l + 1)) ∧
  ∀ (t : Table Band 8) (length : Nat),
    (∀ i : Fin 8, length ≤ (t.get i).bound → (∀ j : Fin 8, j < i → (t.get j).bound < length) →
      bandOf t length = i.val + 1) ∧
    ((∀ i : Fin 8, (t.get i).bound < length) → bandOf t length = 8)

/-- BOARD GRADE (R133 to R135, R125): the checks in their order, the sort decision by class, grade, sort map and hand-off, the
counters, and the board leaving queue B. The width of an absent class is the model's choice (log 6). -/
def Obligations.BoardGradeDecidesTheBoard : Prop :=
  ∀ (p : Port) (r : Request) (lbsy : Bool) (g : GradeReport) (s : State),
    Offers s p 0x45 r → readGradeReport r.body = .ok g →
    (s.tracker.run = none → exec (.boardGrade p lbsy) s = .next (s.refusedWith p r .badState)) ∧
    ∀ n, s.tracker.run = some n →
      ((∃ b ∈ n.queueA, b.seq = g.seq) → exec (.boardGrade p lbsy) s = .next (s.refusedWith p r .notMetered)) ∧
      ((∀ b ∈ n.queueA, b.seq ≠ g.seq) → (∀ b ∈ n.queueB, b.seq ≠ g.seq) →
        exec (.boardGrade p lbsy) s = .next (s.refusedWith p r .unknownBoard)) ∧
      ∀ b, (∀ a ∈ n.queueA, a.seq ≠ g.seq) → n.queueB.find? (fun x => x.seq == g.seq) = some b →
        let ends := decide (n.state = .draining ∧ n.queueA = [] ∧ n.queueB.eraseP (fun x => x.seq == b.seq) = [])
        let unmetered := if b.cls = some .noReading ∧ n.policy = .accept then min 4294967295 (n.counters.unmetered + 1)
          else n.counters.unmetered
        let packed := { n.counters with packed := min 4294967295 (n.counters.packed + 1), unmetered := unmetered }
        let redry := { n.counters with redry := min 4294967295 (n.counters.redry + 1), unmetered := unmetered }
        let reject := { n.counters with rejected := min 4294967295 (n.counters.rejected + 1), unmetered := unmetered }
        let body (chute bin reason id band volume : Nat) : List Field :=
          [.num 2 b.seq, .num 2 b.charge, optField 1 (fun c => .sym (.boardClass c)) b.cls, .num 1 chute, .num 1 bin,
            .num 1 reason, .num 2 id, .num 1 band, .num 4 volume, .flag ends]
        let volume := boardVolume (match s.charge b.charge with | some c => c.thickness | none => n.thickness) g.width g.length
        let why := if b.cls = some .wet then 1 else 2
        let band := bandOf s.library.bands g.length
        (b.cls = some .wet ∨ (b.cls = some .noReading ∧ n.policy = .redry) →
          (∀ t lot, s.handToLot n.species n.thickness b.charge volume = (t, some lot) →
            exec (.boardGrade p lbsy) s = .next ((t.leaves n b redry).done p r (body 2 0 why lot 0 volume))) ∧
          (∀ t, s.handToLot n.species n.thickness b.charge volume = (t, none) →
            exec (.boardGrade p lbsy) s = .next ((t.leaves n b reject).done p r (body 3 0 6 0 0 0)))) ∧
        (b.cls ≠ some .wet → ¬(b.cls = some .noReading ∧ n.policy = .redry) →
          (g.grade = 0 → exec (.boardGrade p lbsy) s = .next ((s.leaves n b reject).done p r (body 3 0 3 0 0 0))) ∧
          (g.grade ≠ 0 → s.tracker.binOf g.grade g.width band = none →
            exec (.boardGrade p lbsy) s = .next ((s.leaves n b reject).done p r (body 3 0 4 0 band 0))) ∧
          (∀ bin cls, g.grade ≠ 0 → s.tracker.binOf g.grade g.width band = some bin → b.cls = some cls →
            let handed : HandedBoard := ⟨b.charge, ⟨n.species, n.thickness, g.width, g.grade, band⟩, volume, b.reading, cls⟩
            (∀ t id, s.handToBin lbsy bin handed = (t, some id) →
              exec (.boardGrade p lbsy) s = .next ((t.leaves n b packed).done p r (body 1 bin 0 id band volume))) ∧
            (∀ t, s.handToBin lbsy bin handed = (t, none) →
              exec (.boardGrade p lbsy) s = .next ((t.leaves n b reject).done p r (body 3 0 5 0 band 0)))))

/-! ## Redry lots and packs (chapters 8 and 9) -/

/-- A board handed to the lot table or to a bin (R144 to R146, R156 to R159): the record it joins, how the contributors and
other pieces count it, the reference count of a charge listed anew rising by one (R66), and the refusals where no entry is
free. -/
def Obligations.HandedBoardsJoinLotsAndPacks : Prop :=
  (∀ (cs : List Contributor) (other id : Nat),
    (id ∈ cs.map Contributor.charge →
      joinPieces cs other id = (cs.map fun c => if c.charge = id then { c with pieces := c.pieces + 1 } else c, other)) ∧
    (id ∉ cs.map Contributor.charge → cs.length < 4 → joinPieces cs other id = (cs ++ [⟨id, 1⟩], other)) ∧
    (id ∉ cs.map Contributor.charge → 4 ≤ cs.length → joinPieces cs other id = (cs, other + 1))) ∧
  (∀ (species thickness charge volume : Nat) (s : State),
    let joined (x : Lot) : Lot := { x with
      pieces := x.pieces + 1, volume := min 4294967295 (x.volume + volume)
      contributors := (joinPieces x.contributors x.other charge).1, other := (joinPieces x.contributors x.other charge).2
      state := if 2000 ≤ x.pieces + 1 then .closed else x.state }
    let listed (x : Lot) (t : State) : State :=
      if charge ∉ x.contributors.map Contributor.charge ∧ x.contributors.length < 4 then
        { t with charges := { t.charges with
          entries := keyModify Charge.id charge (fun c => { c with refs := c.refs + 1 }) t.charges.entries } }
      else t
    (∀ x, s.openLot species thickness = some x → s.handToLot species thickness charge volume =
      (listed x { s with lots := { s.lots with lots := keyPut Lot.number (joined x) s.lots.lots } }, some x.number)) ∧
    (s.openLot species thickness = none → s.lots.lots.length < 4 →
      let number := newId 255 (s.lots.lots.map Lot.number) s.lots.last
      let x : Lot := ⟨number, species, thickness, .isOpen, 0, 0, [], 0⟩
      s.handToLot species thickness charge volume =
        (listed x { s with lots := { lots := keyPut Lot.number (joined x) s.lots.lots, last := number } }, some number)) ∧
    (s.openLot species thickness = none → 4 ≤ s.lots.lots.length →
      s.handToLot species thickness charge volume = (s.raiseAll .redryFull, none))) ∧
  ∀ (lbsy : Bool) (bin : Nat) (b : HandedBoard) (s : State),
    let added (q : Pack) : Pack := { q with
      pieces := q.pieces + 1, volume := min 4294967295 (q.volume + b.volume)
      contributors := (joinPieces q.contributors q.other b.charge).1
      other := (joinPieces q.contributors q.other b.charge).2
      overdry := if b.cls = .overdry then q.overdry + 1 else q.overdry
      metered := if b.reading.isSome then q.metered + 1 else q.metered
      unmetered := if b.reading.isSome then q.unmetered else q.unmetered + 1
      mcSum := q.mcSum + b.reading.getD 0
      mcMin := match b.reading with | some v => some (match q.mcMin with | some w => min w v | none => v) | none => q.mcMin
      mcMax := match b.reading with | some v => some (match q.mcMax with | some w => max w v | none => v) | none => q.mcMax }
    let meets (q : Pack) : Prop :=
      match s.target q.bin with
      | .pieces v => v ≤ (added q).pieces
      | .volume v => v ≤ (added q).volume
    let listed (q : Pack) (t : State) : State :=
      if b.charge ∉ q.contributors.map Contributor.charge ∧ q.contributors.length < 4 then
        { t with charges := { t.charges with
          entries := keyModify Charge.id b.charge (fun c => { c with refs := c.refs + 1 }) t.charges.entries } }
      else t
    let joins (q : Pack) (t u : State) : Prop :=
      (¬meets q → q.pieces + 1 < 2000 → u = listed q (t.modifyPack q.id fun _ => added q)) ∧
      (¬meets q → 2000 ≤ q.pieces + 1 → u = (listed q (t.modifyPack q.id fun _ => added q)).closePack lbsy q.id .limit) ∧
      (meets q → u = (listed q (t.modifyPack q.id fun _ => added q)).closePack lbsy q.id .target)
    (∀ q, s.openPack bin = some q → q.key = b.key →
      ∃ u, s.handToBin lbsy bin b = (u, some q.id) ∧ joins q s u) ∧
    (∀ q, s.openPack bin = some q → q.key ≠ b.key →
      s.handToBin lbsy bin b = (s.closePack lbsy q.id .keyChange).openForBoard lbsy bin b) ∧
    (s.openPack bin = none → s.handToBin lbsy bin b = s.openForBoard lbsy bin b) ∧
    (s.packs.packs.length < 64 →
      let q : Pack := openedPack (newId 65535 (s.packs.packs.map Pack.id) s.packs.lastId) bin b.key
        (if s.clock.isSet then some s.clock.minutes else none)
      ∃ u, s.openForBoard lbsy bin b = (u, some q.id) ∧
        joins q { s with packs := { s.packs with packs := keyPut Pack.id q s.packs.packs, lastId := q.id } } u) ∧
    (64 ≤ s.packs.packs.length →
      (s.packs.blocked = true → s.openForBoard lbsy bin b = (s, none)) ∧
      (s.packs.blocked = false → s.openForBoard lbsy bin b =
        ({ s with packs := { s.packs with blocked := true } }.raiseAll .registerFull, none)))

/-- CLOSE LOT and CONVERT LOT (R147, R148), SET BIN TARGET, CLOSE PACK and RELEASE PACK (R153, R160, R165), an absent lot or
pack being NO_SUCH, and what every close of a pack does, up to its entry into the label queue where a place is left (R161,
R162). The width of an absent serial in the RELEASE PACK answer is the model's choice (log 6). -/
def Obligations.LotAndPackRequestsComplete : Prop :=
  (∀ (p : Port) (r : Request) (n : Nat) (s : State), readOne 1 1 255 r.body = .ok n → s.lot n = none →
    (Offers s p 0x50 r → exec (.closeLot p) s = .next (s.refusedWith p r .noSuch)) ∧
    (Offers s p 0x51 r → exec (.convertLot p) s = .next (s.refusedWith p r .noSuch))) ∧
  (∀ (p : Port) (r : Request) (n : Nat) (x : Lot) (s : State), readOne 1 1 255 r.body = .ok n → s.lot n = some x →
    (Offers s p 0x50 r →
      (x.state = .isOpen → exec (.closeLot p) s = .next (({ s with
        lots := { s.lots with lots := keyModify Lot.number n (fun x => { x with state := .closed }) s.lots.lots } }).done p r
          [.num 1 n, .num 1 x.species, .num 1 x.thickness, .num 2 x.pieces, .num 4 x.volume])) ∧
      (x.state = .closed → exec (.closeLot p) s = .next (s.refusedWith p r .badState))) ∧
    (Offers s p 0x51 r → (x.contributors.map Contributor.charge).Nodup →
      let id := newId 65535 (s.charges.entries.map Charge.id) s.charges.lastId
      let c : Charge := {
        id := id, species := x.species, thickness := x.thickness, volume := x.volume, state := .staged, kiln := none
        schedule := none, finalTarget := none, samples := [], controlling := none, wettest := none
        flags := ⟨false, false, false, true, false⟩, htAccrual := 0, stats := ⟨0, 0, 0, 0, 0⟩
        origin := some ⟨x.contributors.map Contributor.charge, decide (x.other ≠ 0)⟩, refs := 0, firstTrace := none }
      (s.charges.entries.length < 32 → exec (.convertLot p) s = .next (({ s with
        charges := { lastId := id, entries := (keyPut Charge.id c s.charges.entries).map fun (d : Charge) =>
          if d.id ∈ x.contributors.map Contributor.charge then { d with refs := d.refs - 1 } else d }
        lots := { s.lots with lots := s.lots.lots.filter fun y => y.number != n } }).done p r
          ([Field.num 1 n, .num 2 id, .num 1 x.species, .num 1 x.thickness, .num 2 x.pieces, .num 4 x.volume,
            .num 1 x.contributors.length] ++ x.contributors.map (fun (c : Contributor) => Field.num 2 c.charge) ++
              [Field.flag (decide (x.other ≠ 0))]))) ∧
      (32 ≤ s.charges.entries.length → exec (.convertLot p) s = .next (s.refusedWith p r .tableFull)))) ∧
  (∀ (lbsy : Bool) (id : Nat) (cause : CloseCause) (s : State),
    let t := { s with
      packs := { s.packs with
        packs := keyModify Pack.id id (fun q => { q with
          state := .closed, cause := some cause, short := decide (cause ≠ CloseCause.target ∧ cause ≠ CloseCause.targetChange)
          closedAt := if s.clock.isSet then some s.clock.minutes else none }) s.packs.packs
        closeList := s.packs.closeList ++ [id] } }.raiseAll .packClosed
    let u := { t.modifyPack id (fun q => { q with state := .labelQueued }) with
      label := { s.label with queue := s.label.queue ++ [(⟨.pack, id, none⟩ : Job)] } }
    (8 ≤ s.label.queue.length → s.closePack lbsy id cause = t) ∧
    (s.label.queue.length < 8 → s.label.state ≠ .idle → s.closePack lbsy id cause = u) ∧
    (s.label.queue.length < 8 → s.label.state = .idle → s.closePack lbsy id cause = u.startHead lbsy)) ∧
  ∀ (p : Port) (r : Request) (lbsy : Bool) (s : State),
    (∀ bin tg, Offers s p 0x60 r → Owns s p .planer → readBinTarget r.body = .ok (bin, tg) →
      let t := { s with packs := { s.packs with targets := s.packs.targets.set (slot1 19 bin) tg } }
      let body (closed : Nat) : List Field := [.num 1 bin, .num 1 tg.kindCode, .num 4 tg.value,
        .num 1 (s.target bin).kindCode, .num 4 (s.target bin).value, .num 2 closed]
      (∀ q, s.openPack bin = some q → tg.met q = true →
        exec (.setBinTarget p lbsy) s = .next ((t.closePack lbsy q.id .targetChange).done p r (body q.id))) ∧
      ((∀ q, s.openPack bin = some q → tg.met q = false) →
        exec (.setBinTarget p lbsy) s = .next (t.done p r (body 0)))) ∧
    (∀ bin, Offers s p 0x61 r → readOne 1 1 20 r.body = .ok bin →
      (∀ q, s.openPack bin = some q →
        let t := s.closePack lbsy q.id .command
        exec (.closePack p lbsy) s = .next (t.done p r [.num 1 bin, .num 2 q.id, .num 2 q.pieces, .num 4 q.volume,
          .sym (.pack (match t.pack q.id with | some q => q.state | none => .closed))])) ∧
      (s.openPack bin = none → exec (.closePack p lbsy) s = .next (s.refusedWith p r .badState))) ∧
    (∀ id, Offers s p 0x62 r → readOne 2 1 65535 r.body = .ok id → s.pack id = none →
      exec (.releasePack p) s = .next (s.refusedWith p r .noSuch)) ∧
    (∀ id q, Offers s p 0x62 r → readOne 2 1 65535 r.body = .ok id → s.pack id = some q →
      (q.state ≠ .labelled → exec (.releasePack p) s = .next (s.refusedWith p r .badState)) ∧
      (q.state = .labelled → (∃ j ∈ s.label.queue, j.kind = .reprint ∧ j.pack = id) →
        exec (.releasePack p) s = .next (s.refusedWith p r .inUse)) ∧
      (q.state = .labelled → (∀ j ∈ s.label.queue, j.kind = .reprint → j.pack ≠ id) →
        (q.contributors.map Contributor.charge).Nodup →
        exec (.releasePack p) s = .next (({ s with
          packs := { s.packs with packs := s.packs.packs.filter fun y => y.id != id, blocked := false }
          charges := { s.charges with entries := s.charges.entries.map fun (d : Charge) =>
            if d.id ∈ q.contributors.map Contributor.charge then { d with refs := d.refs - 1 } else d } }).done p r
            ([Field.num 2 id, .num 1 q.bin, .num 1 q.key.species, .num 1 q.key.thickness, .num 2 q.key.width,
              .num 1 q.key.grade, .num 1 q.key.band, .num 2 q.pieces, .num 4 q.volume, optNum 4 q.serial, .num 1 q.reprints,
              .num 1 q.contributors.length] ++ q.contributors.map (fun (c : Contributor) => Field.num 2 c.charge) ++
              [Field.flag (decide (q.other ≠ 0))]))))

/-! ## The label engine (chapter 10) -/

/-- REPRINT, a pack that is absent being NO_SUCH, HALT PRINTER and RESUME PRINTER (R172, R182, R183), and the start of the
head job: its serial, its composed fields, SENDING with field 1, and the LBSY sample before the first address cycle (R173,
R174, R178). Model's choice in the answers: an absent field in progress takes one byte, an absent job is sent as its kind,
pack and serial each absent in one, two and four bytes, and an absent serial takes four, their bytes free (log 6, DESIGN
CHOICE, unsafe in the width). -/
def Obligations.PrinterRequestsComplete : Prop :=
  (∀ (lbsy : Bool) (j : Job) (rest : List Job) (q : Pack) (s : State), s.label.queue = j :: rest → s.pack j.pack = some q →
    let serial := match j.serial with
      | some n => n
      | none => if s.label.lastSerial < 999999 then s.label.lastSerial + 1 else 1
    s.startHead lbsy = { s with label := { s.label with
      queue := { j with serial := some serial } :: rest, state := .sending, halt := none, haltPending := false
      field := some 1, lastSerial := if j.serial.isSome then s.label.lastSerial else serial
      fields := s.labelFields j.kind serial q, place := 0, reads := [], bus := s.busFor lbsy (.address 1) } }) ∧
  ∀ (p : Port) (r : Request) (lbsy : Bool) (s : State), Owns s p .printer →
    (∀ id, Offers s p 0x70 r → readOne 2 1 65535 r.body = .ok id → s.pack id = none →
      exec (.reprint p lbsy) s = .next (s.refusedWith p r .noSuch)) ∧
    (∀ id q, Offers s p 0x70 r → readOne 2 1 65535 r.body = .ok id → s.pack id = some q →
      let t := { s with label := { s.label with queue := s.label.queue ++ [(⟨.reprint, id, q.serial⟩ : Job)] } }
      let body : List Field := [.num 2 id, optNum 4 q.serial, .num 1 (s.label.queue.length + 1)]
      (q.state = .labelled → s.label.queue.length < 8 → s.label.state ≠ .idle →
        exec (.reprint p lbsy) s = .next (t.done p r body)) ∧
      (q.state = .labelled → s.label.queue.length < 8 → s.label.state = .idle →
        exec (.reprint p lbsy) s = .next ((t.startHead lbsy).done p r body)) ∧
      (q.state ≠ .labelled → exec (.reprint p lbsy) s = .next (s.refusedWith p r .badState)) ∧
      (q.state = .labelled → 8 ≤ s.label.queue.length → exec (.reprint p lbsy) s = .next (s.refusedWith p r .tableFull))) ∧
    (Offers s p 0x71 r →
      (s.label.state = .idle → exec (.haltPrinter p) s = .next (({ s with label := { s.label with
          state := .halted, halt := some .command, haltPending := false, field := none, fields := [], place := 0, reads := []
          bus := .rest } }).done p r [.sym (.engine .halted), .flag false, .absent 1])) ∧
      (s.label.state = .sending ∨ s.label.state = .verifying → s.label.haltPending = false → exec (.haltPrinter p) s =
        .next (({ s with label := { s.label with haltPending := true } }).done p r
          [.sym (.engine s.label.state), .flag true, optNum 1 s.label.field])) ∧
      (s.label.state = .halted ∨ (s.label.state ≠ .idle ∧ s.label.haltPending = true) →
        exec (.haltPrinter p) s = .next (s.refusedWith p r .badState))) ∧
    (Offers s p 0x72 r →
      (s.label.state = .halted → s.label.queue = [] → exec (.resumePrinter p lbsy) s =
        .next (({ s with label := { s.label with state := .idle, halt := none } }).done p r
          [.sym (.engine .idle), .absent 1, .absent 2, .absent 4])) ∧
      (∀ j rest, s.label.state = .halted → s.label.queue = j :: rest → exec (.resumePrinter p lbsy) s =
        .next ((s.startHead lbsy).done p r [.sym (.engine .sending), .sym (.job j.kind), .num 2 j.pack, .num 4
          (match j.serial with
            | some n => n
            | none => if s.label.lastSerial < 999999 then s.label.lastSerial + 1 else 1)])) ∧
      (∀ j rest, s.label.state = .sending ∨ s.label.state = .verifying → s.label.haltPending = true →
        s.label.queue = j :: rest → exec (.resumePrinter p lbsy) s =
          .next (({ s with label := { s.label with haltPending := false } }).done p r
            [.sym (.engine s.label.state), .sym (.job j.kind), .num 2 j.pack, optNum 4 j.serial])) ∧
      (s.label.state = .idle ∨ (s.label.state ≠ .halted ∧ s.label.haltPending = false) →
        exec (.resumePrinter p lbsy) s = .next (s.refusedWith p r .badState)))

/-- The printer bus drives the engine (R162, R163, R177 to R182): the cycles of a field, the execute phase, the four reads, a
match and a mismatch of the serial, the end of a wait by the fall of LBSY or by the timeout, and a halt that is pending at the
end of a field. The CLOSED packs that enter the places left: behind a job in progress they wait, and at an IDLE engine with an
empty queue the first of them starts, with its serial (R162, R173, R174, R185). The levels of LD, LAS, LWS# and LRS# in the
phases of each cycle and between cycles (R177). An event whose occasion is absent changes nothing (log 35). -/
def Obligations.BusEventsDriveTheLabel : Prop :=
  (∀ (lbsy : Bool) (s : State),
    let l := (s.packs.closeList.filter fun id => decide (∃ q, s.pack id = some q ∧ q.state = .closed)).take
      (8 - s.label.queue.length)
    let packs := { s.packs with packs := s.packs.packs.map fun (q : Pack) =>
      if q.id ∈ l then { q with state := .labelQueued } else q }
    let waiting (ids : List Nat) : List Job := ids.map fun id => (⟨.pack, id, none⟩ : Job)
    (s.label.state ≠ .idle → s.fillQueue lbsy =
      { s with packs := packs, label := { s.label with queue := s.label.queue ++ waiting l } }) ∧
    (l = [] → s.fillQueue lbsy = s) ∧
    ∀ id later q, s.label.state = .idle → s.label.queue = [] → l = id :: later → s.pack id = some q →
      let serial := if s.label.lastSerial < 999999 then s.label.lastSerial + 1 else 1
      s.fillQueue lbsy = { s with
        packs := packs
        label := { s.label with
          queue := ⟨.pack, id, some serial⟩ :: waiting later, state := .sending, halt := none, haltPending := false
          field := some 1, lastSerial := serial, fields := s.labelFields .pack serial q, place := 0, reads := []
          bus := s.busFor lbsy (.address 1) } }) ∧
  (∀ (a d : Byte) (setup strobe hold n : Nat) (ph : BusPhase),
    let strobed := decide (ph = .strobe)
    (Bus.cycle ⟨.address a, setup, strobe, hold⟩).pins ph = { ld := some a, las := strobed, lwsN := true, lrsN := true } ∧
    (Bus.cycle ⟨.write d, setup, strobe, hold⟩).pins ph = { ld := some d, las := false, lwsN := !strobed, lrsN := true } ∧
    (Bus.cycle ⟨.read, setup, strobe, hold⟩).pins ph = { ld := none, las := false, lwsN := true, lrsN := !strobed } ∧
    Bus.rest.pins ph = { ld := none, las := false, lwsN := true, lrsN := true } ∧
    (Bus.waiting n).pins ph = { ld := none, las := false, lwsN := true, lrsN := true }) ∧
  ∀ (lbsy : Bool) (ld : Byte) (s : State), s.retention.phase = .running →
    let withLabel (e : LabelEngine) : State := { s with label := e }
    let halted (why : HaltReason) (e : LabelEngine) : LabelEngine := { e with
      state := .halted, halt := some why, haltPending := false, field := none, fields := [], place := 0, reads := []
      bus := .rest }
    (∀ n, s.label.bus = .waiting n →
      exec .lbsyFall s = .next (withLabel { s.label with bus := s.busFor false s.label.nextCycle }) ∧
      exec .printerTimeout s = .next ((withLabel (halted .timeout s.label)).raiseAll .printerFault)) ∧
    ((∀ n, s.label.bus ≠ .waiting n) → exec .lbsyFall s = .next s ∧ exec .printerTimeout s = .next s) ∧
    ((∀ c, s.label.bus ≠ .cycle c) → exec (.busCycleComplete lbsy ld) s = .next s) ∧
    ∀ c, s.label.bus = .cycle c →
      (∀ k, s.label.field = some k → k ≠ 0 →
        let text := s.label.fields.getD (k - 1) []
        let next := if k < 16 then k + 1 else 0
        (s.label.place ≤ text.length → exec (.busCycleComplete lbsy ld) s = .next (withLabel { s.label with
          place := s.label.place + 1
          bus := s.busFor lbsy (.write (if s.label.place = 0 then BitVec.ofNat 8 text.length
            else text.getD (s.label.place - 1) 0)) })) ∧
        (text.length < s.label.place → s.label.haltPending = false →
          exec (.busCycleComplete lbsy ld) s = .next (withLabel { s.label with
            field := some next, place := 0, bus := s.busFor lbsy (.address (BitVec.ofNat 8 next)) })) ∧
        (text.length < s.label.place → s.label.haltPending = true →
          exec (.busCycleComplete lbsy ld) s = .next (withLabel (halted .command s.label)))) ∧
      (s.label.field = some 0 → s.label.haltPending = false → exec (.busCycleComplete lbsy ld) s = .next (withLabel
        { s.label with state := .verifying, field := none, place := 0, reads := [], bus := s.busFor lbsy .read })) ∧
      (s.label.field = some 0 → s.label.haltPending = true →
        exec (.busCycleComplete lbsy ld) s = .next (withLabel (halted .command s.label))) ∧
      (s.label.field = none → s.label.reads.length < 3 → exec (.busCycleComplete lbsy ld) s = .next (withLabel
        { s.label with reads := s.label.reads ++ [ld], bus := s.busFor lbsy .read })) ∧
      (∀ a b1 b2 j rest, s.label.field = none → s.label.reads = [a, b1, b2] → s.label.queue = j :: rest →
        let printed := b1.toNat * 65536 + b2.toNat * 256 + ld.toNat
        let read := { s.label with lastVerify := some [b1, b2, ld], bus := .rest }
        (j.serial ≠ some printed → exec (.busCycleComplete lbsy ld) s =
          .next ((withLabel (halted .verify read)).raiseAll .printerFault)) ∧
        (j.serial = some printed →
          let done : State := { s with
            label := { read with queue := rest }
            packs := { s.packs with
              closeList := if j.kind = .pack then s.packs.closeList.filter (fun id => id != j.pack) else s.packs.closeList
              packs := s.packs.packs.map fun (q : Pack) =>
                if q.id = j.pack then
                  (if j.kind = .pack then { q with state := .labelled, serial := j.serial }
                    else { q with reprints := min 255 (q.reprints + 1) })
                else q } }
          let u := done.fillQueue lbsy
          let idle : State := { u with label := { u.label with
            state := .idle, halt := none, field := none, fields := [], place := 0, reads := [], bus := .rest } }
          s.label.state = .verifying →
          (s.label.haltPending = true → exec (.busCycleComplete lbsy ld) s =
            .next { u with label := halted .command u.label }) ∧
          (s.label.haltPending = false → u.label.queue = [] → exec (.busCycleComplete lbsy ld) s = .next idle) ∧
          (s.label.haltPending = false → u.label.queue ≠ [] → exec (.busCycleComplete lbsy ld) s =
            .next (idle.startHead lbsy))))

/-- The texts of a label (R174 to R176): the sixteen fields in their order, each from the job, the pack record, the library
and the contributors' charges as they stand. A decimal reads back as its number without a leading zero, a padded one has its
width, the volume reads back as thousandths of a cubic metre and the mean MC as tenths of a percent, each rounded half up. The
year digits of a closed time past the year 9999 are left open (log 22). -/
def Obligations.LabelTextsReadBack : Prop :=
  let value (t : Text) : Nat := t.foldl (fun n d => n * 10 + (d.toNat - 48)) 0
  let digits (t : Text) : Prop := ∀ d ∈ t, 48 ≤ d.toNat ∧ d.toNat ≤ 57
  (∀ n, value (decimal n) = n ∧ digits (decimal n) ∧ decimal n ≠ [] ∧ ((decimal n).head? = some 0x30 → n = 0)) ∧
  (∀ w n, (padded w n).length = w ∧ digits (padded w n) ∧ value (padded w n) = n % 10 ^ w) ∧
  (∀ v, ∃ whole frac, volumeText v = decimal whole ++ chStop :: frac ∧ frac.length = 3 ∧ digits frac ∧
    2000 * (whole * 1000 + value frac) ≤ 2 * v + 1000 ∧ 2 * v + 1000 < 2000 * (whole * 1000 + value frac + 1)) ∧
  (∀ m sum, 0 < m → ∃ whole tenth, meanText m sum = decimal whole ++ chStop :: tenth ∧ tenth.length = 1 ∧ digits tenth ∧
    2 * m * (whole * 10 + value tenth) ≤ 2 * sum + m ∧ 2 * sum + m < 2 * m * (whole * 10 + value tenth + 1)) ∧
  (∀ sum, meanText 0 sum = [0x2D, 0x2D]) ∧
  ∀ (kind : JobKind) (serial : Nat) (q : Pack) (s : State),
    let charges := q.contributors.filterMap fun c => s.charge c.charge
    ∃ (highest dried : Nat) (closed : Text),
      s.labelFields kind serial q =
        [s.library.params.header, decimal q.id, (match s.species q.key.species with | some x => x.label | none => []),
          decimal q.key.thickness, decimal q.key.width, s.library.gradeTexts.get (slot1 7 q.key.grade),
          (s.library.bands.get (slot1 7 q.key.band)).text, decimal q.pieces, volumeText q.volume,
          meanText q.metered q.mcSum, 0x4B :: 0x44 :: decimal dried,
          if q.other = 0 ∧ ∀ c ∈ q.contributors, ∃ d, s.charge c.charge = some d ∧ d.flags.htCertified = true
            then [0x48, 0x54] else [],
          List.intercalate [0x2C] (q.contributors.map fun c => decimal c.charge) ++ (if q.other = 0 then [] else [0x2B]),
          closed, padded 6 serial,
          match kind with | .pack => [] | .reprint => [0x52, 0x45, 0x50, 0x52, 0x49, 0x4E, 0x54]] ∧
      (∀ c ∈ charges, ∀ tg, c.finalTarget = some tg → tg ≤ highest) ∧
      (highest = 0 ∨ ∃ c ∈ charges, c.finalTarget = some highest) ∧
      20 * dried ≤ 2 * highest + 10 ∧ 2 * highest + 10 < 20 * (dried + 1) ∧
      (q.closedAt = none → closed = [0x2D, 0x2D, 0x2D, 0x2D]) ∧
      ∀ m, q.closedAt = some m →
        let d := dateOf m
        ∃ year : Text, year.length = 4 ∧ (d.year ≤ 9999 → year = padded 4 d.year) ∧
          closed = year ++ [0x2D] ++ padded 2 d.month ++ [0x2D] ++ padded 2 d.day ++ [0x20] ++ padded 2 d.hour ++ [0x3A] ++
            padded 2 d.minute

/-! ## RESTART, the supplies and the starts (chapter 12) -/

/-- RESTART (R19, R33, R189, R191, R200): every port unit is reset with RESTARTED pending, and TRACE_MARK with it at Y where
the RESTART records reached the mark; its ticket and answers in flight are kept, the DONE answer stands in the buffer of the
port that asked, claims that are not seized are free, and the other blocks are as RestartedBlocks says, the label queue
refilled as BusEventsDriveTheLabel writes it out; a frame in progress is cut, which FramePiecesJoin writes out; a RESTART that
no port has POSTED does nothing (log 35). -/
def Obligations.RestartRebuildsTheVolatileState : Prop :=
  ∀ (p : Port) (r : Request) (eye lbsy : Bool) (s : State),
    ((∀ r, ¬Offers s p 0x92 r) → exec (.restart p eye lbsy) s = .next s) ∧
    (Offers s p 0x92 r → ∃ t, exec (.restart p eye lbsy) s = .next t ∧ RestartedBlocks s t .restart eye lbsy ∧
      RestartedPending s t ∧ t.retention = s.retention ∧
      (∀ res, t.claim res = if (s.claim res).seized then s.claim res else ⟨none, false⟩) ∧
      ∀ q, t.port q = { s.port q with
        slot := .empty, buffer := if q = p then some ⟨r.kind, r.tag, .done []⟩ else none, pending := (t.port q).pending
        enabled := defaultEnable q, notes := 0, errors := 0, last := .blank
        frame := (s.port q).frame.map fun f => { f with cut := true } })

/-- Power-on reset, the two starts, the backup monitor and the loss of main power (R20, R34, R189, R197 to R199): what each
changes, by the power phase and the retained-valid marker; and until a start completes no request is taken, no answer arrives
and no expiry, edge, meter byte or bus event does anything (R117, R199). Model's choices: an open frame stays cut past a start
(log 4); answers in flight are dropped by a start (log 15); the volatile state stays as it stood through a power-on reset and
a loss of main power until a start clears it (log 16, unsafe); POWER_ON_RESET begins a start in every phase (log 23); how far
a cut warm start has come (log 17) and the order of its work (log 26); an absent occasion changes nothing (log 35). -/
def Obligations.StartsFollowTheMarker : Prop :=
  ∀ s : State,
    let cutFrame (u : PortUnit) : PortUnit := { u with frame := u.frame.map fun f => { f with cut := true } }
    let begun (q : Port) : PortUnit := {
      slot := .empty, ticket := 0, buffer := none, pending := 0x040000, enabled := defaultEnable q, notes := 0, errors := 0
      last := .blank, inFlight := [], frame := (cutFrame (s.port q)).frame, sent := (s.port q).sent }
    (∃ t, exec .powerOnReset s = .next t ∧ (∀ q, t.port q = cutFrame (s.port q)) ∧
      t = { s with
        ports := t.ports, label := { s.label with bus := .rest }, retention := { s.retention with phase := .starting } }) ∧
    (∀ eye, s.retention.phase = .starting → s.retention.marker = false → exec (.coldStart eye true) s = .next s ∧
      ∃ t, exec (.coldStart eye false) s = .next t ∧ (∀ q, t.port q = begun q) ∧
        t = { State.reset with ports := t.ports, tracker := { Tracker.cold false with eye := eye }, pending := s.pending }) ∧
    (∀ eye cut, ¬(s.retention.phase = .starting ∧ s.retention.marker = false) → exec (.coldStart eye cut) s = .next s) ∧
    (∀ eye lbsy, s.retention.phase = .starting → s.retention.marker = true →
      (∃ t, exec (.warmStart eye lbsy .completes) s = .next t ∧ RestartedBlocks s t .power eye lbsy ∧ RestartedPending s t ∧
        t.retention = { s.retention with startKind := .warm, phase := .running } ∧ (∀ res, t.claim res = ⟨none, false⟩) ∧
        ∀ q, t.port q = { begun q with pending := (t.port q).pending }) ∧
      ∀ charges packs records, ∃ t, exec (.warmStart eye lbsy (.cut charges packs records)) s = .next t ∧
        t = { s with charges := t.charges, kilns := t.kilns, packs := t.packs, trace := t.trace } ∧
        (charges = false → t.charges = s.charges ∧ t.kilns = s.kilns ∧ t.trace = s.trace) ∧
        (charges = true → RestartedCharges s t .power ∧
          (s.trace.Clear 12 → t.trace = s.trace.after (t.restartList.take records))) ∧
        t.packs = (if packs then { s.packs with
          packs := s.packs.packs.map fun (q : Pack) => if q.state = .labelQueued then { q with state := .closed } else q }
          else s.packs)) ∧
    (∀ eye lbsy e, ¬(s.retention.phase = .starting ∧ s.retention.marker = true) →
      exec (.warmStart eye lbsy e) s = .next s) ∧
    (s.retention.phase = .off →
      exec .backupMonitorTrip s = .next { s with retention := { s.retention with marker := false } } ∧
      ∀ low, exec (.mainPowerFail low) s = .next s) ∧
    (s.retention.phase ≠ .off → exec .backupMonitorTrip s = .next s ∧
      ∀ low, ∃ t, exec (.mainPowerFail low) s = .next t ∧ (∀ q, t.port q = cutFrame (s.port q)) ∧
        t = { s with
          ports := t.ports, label := { s.label with bus := .rest }
          retention := { s.retention with phase := .off, marker := s.retention.marker && !low } }) ∧
    (s.retention.phase ≠ .running →
      (∀ c, takenBy c ≠ none → exec c s = .next s) ∧ (∀ p i, exec (.answerArrival p i) s = .next s) ∧
      (∀ k, exec (.kilnMinuteExpiry k) s = .next s) ∧ exec .eyeEdge s = .next s ∧ exec .eyeFilteredFall s = .next s ∧
      (∀ b e, exec (.meterFrame b e) s = .next s ∧ exec (.meterByteReceived b e) s = .next s) ∧
      exec .meterIdleTimeout s = .next s ∧ (∀ lbsy ld, exec (.busCycleComplete lbsy ld) s = .next s) ∧
      exec .lbsyFall s = .next s ∧ exec .printerTimeout s = .next s ∧
      ∀ p eye lbsy, exec (.restart p eye lbsy) s = .next s)

/-! ## The whole part -/

/-- Each block is changed by the commands its chapter names and by no other, in every state (R1, R23, R35, R52, R74, R117,
R142, R152, R171, R186, R192, R198). -/
def Obligations.OnlyTheNamedCommandsChangeABlock : Prop :=
  ∀ (c : Instr) (s t : State), exec c s = .next t →
    (changesClaims c = false → t.claims = s.claims) ∧ (changesLibrary c = false → t.library = s.library) ∧
    (changesCharges c = false → t.charges = s.charges) ∧ (changesKilns c = false → t.kilns = s.kilns) ∧
    (changesTracker c = false → t.tracker = s.tracker) ∧ (changesLots c = false → t.lots = s.lots) ∧
    (changesPacks c = false → t.packs = s.packs) ∧ (changesLabel c = false → t.label = s.label) ∧
    (changesTrace c = false → t.trace = s.trace) ∧ (changesClock c = false → t.clock = s.clock) ∧
    (changesRetention c = false → t.retention = s.retention)

/-- What a cold start leaves, as the tables of each block give it (R14, R20, R34, R35, R50, R73, R100, R117, R151, R170, R185,
R186, R192, R194, R199; that the part stands at the end of a cold start is the model's choice, log 14, as is the low eye
input, log 13), and every invariant below holds there. The default enable sets are the three of R14, and every kiln record is
empty as R100 gives it. -/
def Obligations.ResetIsTheColdStartAndMeetsTheInvariants : Prop :=
  let s := State.reset
  (∀ p, (s.port p).slot = .empty ∧ (s.port p).ticket = 0 ∧ (s.port p).buffer = none ∧ (s.port p).pending = 0x040000 ∧
    (s.port p).enabled = (match p with | .K => 0x0408FA | .P => 0x066602 | .Y => 0x05FBDA) ∧ (s.port p).notes = 0 ∧
    (s.port p).errors = 0 ∧ (s.port p).last = .blank ∧ (s.port p).inFlight = [] ∧ (s.port p).frame = none) ∧
  (∀ res, s.claim res = ⟨none, false⟩) ∧ (∀ n, s.inUse n = 0) ∧
  (∀ k, s.kiln k = {
    link := none, dry := 0, wet := 0, target := none, accumulator := 0, step := 0, stepOn := 0, phaseOn := 0
    overtime := false, offRun := 0, onRun := 0, deviation := .inBand, report := none, age := 0, stale := false, chart := 0
    timer := false }) ∧
  s.library.species = [] ∧ s.library.schedules = [] ∧
  s.library.gradeTexts.cells = [0x31, 0x32, 0x33, 0x34, 0x35, 0x36, 0x37, 0x38].map (fun d =>
    [0x47, 0x52, 0x41, 0x44, 0x45, d]) ∧
  s.library.bands.cells.map Band.bound = [1800, 2400, 3000, 3600, 4200, 4800, 5400, 7500] ∧
  (∀ b ∈ s.library.bands.cells, b.text = decimal b.bound) ∧
  s.library.params.values.cells = [30, 30, 10, 10, 560, 30, 30, 30, 40, 1, 100, 50, 12, 2000, 2, 4, 2] ∧
  s.library.params.header = [] ∧ s.charges = ⟨[], 0⟩ ∧
  s.tracker = ⟨none, 0, none, 0, [], false, []⟩ ∧ s.lots = ⟨[], 0⟩ ∧ (∀ bin, s.target bin = .pieces 200) ∧
  s.packs.packs = [] ∧ s.packs.lastId = 0 ∧ s.packs.closeList = [] ∧ s.packs.blocked = false ∧
  s.label = {
    queue := [], state := .idle, halt := none, haltPending := false, field := none, lastVerify := none, lastSerial := 0
    fields := [], place := 0, reads := [], bus := .rest } ∧
  s.trace = ⟨[], 1, none⟩ ∧ s.clock = ⟨0, false⟩ ∧ s.retention = ⟨true, .cold, .running⟩ ∧ s.pending = [] ∧
  ClaimsOk s ∧ CausesOk s ∧ SlotsOk s ∧ FramesOk s ∧ CapacitiesOk s ∧ RecordsOk s ∧ SetpointsOk s ∧ InUseOk s ∧ RefsOk s ∧ BoardsOk s ∧
  LabelOk s ∧ TraceOk s

/-- Every step, from every state, keeps: a seized claim is Y's (R23); no cause set holds a bit above cause 19 (R14, R21); a
staged answer stands only behind an answer in the buffer (R6); and from the fall of PWRST# or the loss of main power until a
start completes every open frame is cut, so that none acts (R20, log 4). That a frame opened while a start is under way is cut
is the model's reading (log 4, DEDUCED, unsafe). -/
def Obligations.EveryStepKeepsPortsAndClaims : Prop :=
  StepKeeps ClaimsOk ∧ StepKeeps CausesOk ∧ StepKeeps SlotsOk ∧ StepKeeps FramesOk

/-- Every step keeps every table within its capacity and in key order (R52, R118, R137, R142, R154, R171, R186), and every
pack and lot adding up (R142, R155). -/
def Obligations.EveryStepKeepsTablesWithinCapacity : Prop := StepKeeps CapacitiesOk ∧ StepKeeps RecordsOk

/-- Every step keeps wet setpoint ≤ dry setpoint ≤ 1100 at every kiln (R74); the in-use count of every schedule at the number
of charges that use it (R46); and the reference count of every charge at the number of lots and packs that list it (R66), with
the in-flight count of a charge at its boards in the queues (R64, R120). -/
def Obligations.EveryStepKeepsSetpointsAndInUseCounts : Prop := StepKeeps SetpointsOk ∧ StepKeeps InUseOk ∧ StepKeeps RefsOk

/-- Every step keeps every board of a run accounted for (R120), the items of the label engine in their states (R171), and the
sequences of the trace ring consecutive (R186, R188). -/
def Obligations.EveryStepKeepsBoardsLabelsAndTrace : Prop := StepKeeps BoardsOk ∧ StepKeeps LabelOk ∧ StepKeeps TraceOk
end

