-- ==== Sys2Proof/Laws/State.lean ====
section
/-! SUPPORT. One lemma for each field under each update of State, true by rfl. -/

namespace Sys2Proof.Machine

variable (s : State)

/-! ## withPorts -/

@[simp] theorem State.withPorts_ports (x : Ports) : (s.withPorts x).ports = x := rfl
@[simp] theorem State.withPorts_claims (x : Ports) : (s.withPorts x).claims = s.claims := rfl
@[simp] theorem State.withPorts_library (x : Ports) : (s.withPorts x).library = s.library := rfl
@[simp] theorem State.withPorts_charges (x : Ports) : (s.withPorts x).charges = s.charges := rfl
@[simp] theorem State.withPorts_kilns (x : Ports) : (s.withPorts x).kilns = s.kilns := rfl
@[simp] theorem State.withPorts_tracker (x : Ports) : (s.withPorts x).tracker = s.tracker := rfl
@[simp] theorem State.withPorts_lots (x : Ports) : (s.withPorts x).lots = s.lots := rfl
@[simp] theorem State.withPorts_packs (x : Ports) : (s.withPorts x).packs = s.packs := rfl
@[simp] theorem State.withPorts_label (x : Ports) : (s.withPorts x).label = s.label := rfl
@[simp] theorem State.withPorts_trace (x : Ports) : (s.withPorts x).trace = s.trace := rfl
@[simp] theorem State.withPorts_clock (x : Ports) : (s.withPorts x).clock = s.clock := rfl
@[simp] theorem State.withPorts_retention (x : Ports) : (s.withPorts x).retention = s.retention := rfl
@[simp] theorem State.withPorts_pending (x : Ports) : (s.withPorts x).pending = s.pending := rfl
@[simp] theorem State.withPorts_self (x y : Ports) : (s.withPorts x).withPorts y = s.withPorts y := rfl

/-! ## withClaims -/

@[simp] theorem State.withClaims_ports (x : Claims) : (s.withClaims x).ports = s.ports := rfl
@[simp] theorem State.withClaims_claims (x : Claims) : (s.withClaims x).claims = x := rfl
@[simp] theorem State.withClaims_library (x : Claims) : (s.withClaims x).library = s.library := rfl
@[simp] theorem State.withClaims_charges (x : Claims) : (s.withClaims x).charges = s.charges := rfl
@[simp] theorem State.withClaims_kilns (x : Claims) : (s.withClaims x).kilns = s.kilns := rfl
@[simp] theorem State.withClaims_tracker (x : Claims) : (s.withClaims x).tracker = s.tracker := rfl
@[simp] theorem State.withClaims_lots (x : Claims) : (s.withClaims x).lots = s.lots := rfl
@[simp] theorem State.withClaims_packs (x : Claims) : (s.withClaims x).packs = s.packs := rfl
@[simp] theorem State.withClaims_label (x : Claims) : (s.withClaims x).label = s.label := rfl
@[simp] theorem State.withClaims_trace (x : Claims) : (s.withClaims x).trace = s.trace := rfl
@[simp] theorem State.withClaims_clock (x : Claims) : (s.withClaims x).clock = s.clock := rfl
@[simp] theorem State.withClaims_retention (x : Claims) : (s.withClaims x).retention = s.retention := rfl
@[simp] theorem State.withClaims_pending (x : Claims) : (s.withClaims x).pending = s.pending := rfl
@[simp] theorem State.withClaims_self (x y : Claims) : (s.withClaims x).withClaims y = s.withClaims y := rfl

/-! ## withLibrary -/

@[simp] theorem State.withLibrary_ports (x : Library) : (s.withLibrary x).ports = s.ports := rfl
@[simp] theorem State.withLibrary_claims (x : Library) : (s.withLibrary x).claims = s.claims := rfl
@[simp] theorem State.withLibrary_library (x : Library) : (s.withLibrary x).library = x := rfl
@[simp] theorem State.withLibrary_charges (x : Library) : (s.withLibrary x).charges = s.charges := rfl
@[simp] theorem State.withLibrary_kilns (x : Library) : (s.withLibrary x).kilns = s.kilns := rfl
@[simp] theorem State.withLibrary_tracker (x : Library) : (s.withLibrary x).tracker = s.tracker := rfl
@[simp] theorem State.withLibrary_lots (x : Library) : (s.withLibrary x).lots = s.lots := rfl
@[simp] theorem State.withLibrary_packs (x : Library) : (s.withLibrary x).packs = s.packs := rfl
@[simp] theorem State.withLibrary_label (x : Library) : (s.withLibrary x).label = s.label := rfl
@[simp] theorem State.withLibrary_trace (x : Library) : (s.withLibrary x).trace = s.trace := rfl
@[simp] theorem State.withLibrary_clock (x : Library) : (s.withLibrary x).clock = s.clock := rfl
@[simp] theorem State.withLibrary_retention (x : Library) : (s.withLibrary x).retention = s.retention := rfl
@[simp] theorem State.withLibrary_pending (x : Library) : (s.withLibrary x).pending = s.pending := rfl
@[simp] theorem State.withLibrary_self (x y : Library) : (s.withLibrary x).withLibrary y = s.withLibrary y := rfl

/-! ## withCharges -/

@[simp] theorem State.withCharges_ports (x : ChargeTable) : (s.withCharges x).ports = s.ports := rfl
@[simp] theorem State.withCharges_claims (x : ChargeTable) : (s.withCharges x).claims = s.claims := rfl
@[simp] theorem State.withCharges_library (x : ChargeTable) : (s.withCharges x).library = s.library := rfl
@[simp] theorem State.withCharges_charges (x : ChargeTable) : (s.withCharges x).charges = x := rfl
@[simp] theorem State.withCharges_kilns (x : ChargeTable) : (s.withCharges x).kilns = s.kilns := rfl
@[simp] theorem State.withCharges_tracker (x : ChargeTable) : (s.withCharges x).tracker = s.tracker := rfl
@[simp] theorem State.withCharges_lots (x : ChargeTable) : (s.withCharges x).lots = s.lots := rfl
@[simp] theorem State.withCharges_packs (x : ChargeTable) : (s.withCharges x).packs = s.packs := rfl
@[simp] theorem State.withCharges_label (x : ChargeTable) : (s.withCharges x).label = s.label := rfl
@[simp] theorem State.withCharges_trace (x : ChargeTable) : (s.withCharges x).trace = s.trace := rfl
@[simp] theorem State.withCharges_clock (x : ChargeTable) : (s.withCharges x).clock = s.clock := rfl
@[simp] theorem State.withCharges_retention (x : ChargeTable) : (s.withCharges x).retention = s.retention := rfl
@[simp] theorem State.withCharges_pending (x : ChargeTable) : (s.withCharges x).pending = s.pending := rfl
@[simp] theorem State.withCharges_self (x y : ChargeTable) : (s.withCharges x).withCharges y = s.withCharges y := rfl

/-! ## withKilns -/

@[simp] theorem State.withKilns_ports (x : Table Kiln 12) : (s.withKilns x).ports = s.ports := rfl
@[simp] theorem State.withKilns_claims (x : Table Kiln 12) : (s.withKilns x).claims = s.claims := rfl
@[simp] theorem State.withKilns_library (x : Table Kiln 12) : (s.withKilns x).library = s.library := rfl
@[simp] theorem State.withKilns_charges (x : Table Kiln 12) : (s.withKilns x).charges = s.charges := rfl
@[simp] theorem State.withKilns_kilns (x : Table Kiln 12) : (s.withKilns x).kilns = x := rfl
@[simp] theorem State.withKilns_tracker (x : Table Kiln 12) : (s.withKilns x).tracker = s.tracker := rfl
@[simp] theorem State.withKilns_lots (x : Table Kiln 12) : (s.withKilns x).lots = s.lots := rfl
@[simp] theorem State.withKilns_packs (x : Table Kiln 12) : (s.withKilns x).packs = s.packs := rfl
@[simp] theorem State.withKilns_label (x : Table Kiln 12) : (s.withKilns x).label = s.label := rfl
@[simp] theorem State.withKilns_trace (x : Table Kiln 12) : (s.withKilns x).trace = s.trace := rfl
@[simp] theorem State.withKilns_clock (x : Table Kiln 12) : (s.withKilns x).clock = s.clock := rfl
@[simp] theorem State.withKilns_retention (x : Table Kiln 12) : (s.withKilns x).retention = s.retention := rfl
@[simp] theorem State.withKilns_pending (x : Table Kiln 12) : (s.withKilns x).pending = s.pending := rfl
@[simp] theorem State.withKilns_self (x y : Table Kiln 12) : (s.withKilns x).withKilns y = s.withKilns y := rfl

/-! ## withTracker -/

@[simp] theorem State.withTracker_ports (x : Tracker) : (s.withTracker x).ports = s.ports := rfl
@[simp] theorem State.withTracker_claims (x : Tracker) : (s.withTracker x).claims = s.claims := rfl
@[simp] theorem State.withTracker_library (x : Tracker) : (s.withTracker x).library = s.library := rfl
@[simp] theorem State.withTracker_charges (x : Tracker) : (s.withTracker x).charges = s.charges := rfl
@[simp] theorem State.withTracker_kilns (x : Tracker) : (s.withTracker x).kilns = s.kilns := rfl
@[simp] theorem State.withTracker_tracker (x : Tracker) : (s.withTracker x).tracker = x := rfl
@[simp] theorem State.withTracker_lots (x : Tracker) : (s.withTracker x).lots = s.lots := rfl
@[simp] theorem State.withTracker_packs (x : Tracker) : (s.withTracker x).packs = s.packs := rfl
@[simp] theorem State.withTracker_label (x : Tracker) : (s.withTracker x).label = s.label := rfl
@[simp] theorem State.withTracker_trace (x : Tracker) : (s.withTracker x).trace = s.trace := rfl
@[simp] theorem State.withTracker_clock (x : Tracker) : (s.withTracker x).clock = s.clock := rfl
@[simp] theorem State.withTracker_retention (x : Tracker) : (s.withTracker x).retention = s.retention := rfl
@[simp] theorem State.withTracker_pending (x : Tracker) : (s.withTracker x).pending = s.pending := rfl
@[simp] theorem State.withTracker_self (x y : Tracker) : (s.withTracker x).withTracker y = s.withTracker y := rfl

/-! ## withLots -/

@[simp] theorem State.withLots_ports (x : LotTable) : (s.withLots x).ports = s.ports := rfl
@[simp] theorem State.withLots_claims (x : LotTable) : (s.withLots x).claims = s.claims := rfl
@[simp] theorem State.withLots_library (x : LotTable) : (s.withLots x).library = s.library := rfl
@[simp] theorem State.withLots_charges (x : LotTable) : (s.withLots x).charges = s.charges := rfl
@[simp] theorem State.withLots_kilns (x : LotTable) : (s.withLots x).kilns = s.kilns := rfl
@[simp] theorem State.withLots_tracker (x : LotTable) : (s.withLots x).tracker = s.tracker := rfl
@[simp] theorem State.withLots_lots (x : LotTable) : (s.withLots x).lots = x := rfl
@[simp] theorem State.withLots_packs (x : LotTable) : (s.withLots x).packs = s.packs := rfl
@[simp] theorem State.withLots_label (x : LotTable) : (s.withLots x).label = s.label := rfl
@[simp] theorem State.withLots_trace (x : LotTable) : (s.withLots x).trace = s.trace := rfl
@[simp] theorem State.withLots_clock (x : LotTable) : (s.withLots x).clock = s.clock := rfl
@[simp] theorem State.withLots_retention (x : LotTable) : (s.withLots x).retention = s.retention := rfl
@[simp] theorem State.withLots_pending (x : LotTable) : (s.withLots x).pending = s.pending := rfl
@[simp] theorem State.withLots_self (x y : LotTable) : (s.withLots x).withLots y = s.withLots y := rfl

/-! ## withPacks -/

@[simp] theorem State.withPacks_ports (x : PackBuilder) : (s.withPacks x).ports = s.ports := rfl
@[simp] theorem State.withPacks_claims (x : PackBuilder) : (s.withPacks x).claims = s.claims := rfl
@[simp] theorem State.withPacks_library (x : PackBuilder) : (s.withPacks x).library = s.library := rfl
@[simp] theorem State.withPacks_charges (x : PackBuilder) : (s.withPacks x).charges = s.charges := rfl
@[simp] theorem State.withPacks_kilns (x : PackBuilder) : (s.withPacks x).kilns = s.kilns := rfl
@[simp] theorem State.withPacks_tracker (x : PackBuilder) : (s.withPacks x).tracker = s.tracker := rfl
@[simp] theorem State.withPacks_lots (x : PackBuilder) : (s.withPacks x).lots = s.lots := rfl
@[simp] theorem State.withPacks_packs (x : PackBuilder) : (s.withPacks x).packs = x := rfl
@[simp] theorem State.withPacks_label (x : PackBuilder) : (s.withPacks x).label = s.label := rfl
@[simp] theorem State.withPacks_trace (x : PackBuilder) : (s.withPacks x).trace = s.trace := rfl
@[simp] theorem State.withPacks_clock (x : PackBuilder) : (s.withPacks x).clock = s.clock := rfl
@[simp] theorem State.withPacks_retention (x : PackBuilder) : (s.withPacks x).retention = s.retention := rfl
@[simp] theorem State.withPacks_pending (x : PackBuilder) : (s.withPacks x).pending = s.pending := rfl
@[simp] theorem State.withPacks_self (x y : PackBuilder) : (s.withPacks x).withPacks y = s.withPacks y := rfl

/-! ## withLabel -/

@[simp] theorem State.withLabel_ports (x : LabelEngine) : (s.withLabel x).ports = s.ports := rfl
@[simp] theorem State.withLabel_claims (x : LabelEngine) : (s.withLabel x).claims = s.claims := rfl
@[simp] theorem State.withLabel_library (x : LabelEngine) : (s.withLabel x).library = s.library := rfl
@[simp] theorem State.withLabel_charges (x : LabelEngine) : (s.withLabel x).charges = s.charges := rfl
@[simp] theorem State.withLabel_kilns (x : LabelEngine) : (s.withLabel x).kilns = s.kilns := rfl
@[simp] theorem State.withLabel_tracker (x : LabelEngine) : (s.withLabel x).tracker = s.tracker := rfl
@[simp] theorem State.withLabel_lots (x : LabelEngine) : (s.withLabel x).lots = s.lots := rfl
@[simp] theorem State.withLabel_packs (x : LabelEngine) : (s.withLabel x).packs = s.packs := rfl
@[simp] theorem State.withLabel_label (x : LabelEngine) : (s.withLabel x).label = x := rfl
@[simp] theorem State.withLabel_trace (x : LabelEngine) : (s.withLabel x).trace = s.trace := rfl
@[simp] theorem State.withLabel_clock (x : LabelEngine) : (s.withLabel x).clock = s.clock := rfl
@[simp] theorem State.withLabel_retention (x : LabelEngine) : (s.withLabel x).retention = s.retention := rfl
@[simp] theorem State.withLabel_pending (x : LabelEngine) : (s.withLabel x).pending = s.pending := rfl
@[simp] theorem State.withLabel_self (x y : LabelEngine) : (s.withLabel x).withLabel y = s.withLabel y := rfl

/-! ## withTrace -/

@[simp] theorem State.withTrace_ports (x : TraceLog) : (s.withTrace x).ports = s.ports := rfl
@[simp] theorem State.withTrace_claims (x : TraceLog) : (s.withTrace x).claims = s.claims := rfl
@[simp] theorem State.withTrace_library (x : TraceLog) : (s.withTrace x).library = s.library := rfl
@[simp] theorem State.withTrace_charges (x : TraceLog) : (s.withTrace x).charges = s.charges := rfl
@[simp] theorem State.withTrace_kilns (x : TraceLog) : (s.withTrace x).kilns = s.kilns := rfl
@[simp] theorem State.withTrace_tracker (x : TraceLog) : (s.withTrace x).tracker = s.tracker := rfl
@[simp] theorem State.withTrace_lots (x : TraceLog) : (s.withTrace x).lots = s.lots := rfl
@[simp] theorem State.withTrace_packs (x : TraceLog) : (s.withTrace x).packs = s.packs := rfl
@[simp] theorem State.withTrace_label (x : TraceLog) : (s.withTrace x).label = s.label := rfl
@[simp] theorem State.withTrace_trace (x : TraceLog) : (s.withTrace x).trace = x := rfl
@[simp] theorem State.withTrace_clock (x : TraceLog) : (s.withTrace x).clock = s.clock := rfl
@[simp] theorem State.withTrace_retention (x : TraceLog) : (s.withTrace x).retention = s.retention := rfl
@[simp] theorem State.withTrace_pending (x : TraceLog) : (s.withTrace x).pending = s.pending := rfl
@[simp] theorem State.withTrace_self (x y : TraceLog) : (s.withTrace x).withTrace y = s.withTrace y := rfl

/-! ## withClock -/

@[simp] theorem State.withClock_ports (x : MillClock) : (s.withClock x).ports = s.ports := rfl
@[simp] theorem State.withClock_claims (x : MillClock) : (s.withClock x).claims = s.claims := rfl
@[simp] theorem State.withClock_library (x : MillClock) : (s.withClock x).library = s.library := rfl
@[simp] theorem State.withClock_charges (x : MillClock) : (s.withClock x).charges = s.charges := rfl
@[simp] theorem State.withClock_kilns (x : MillClock) : (s.withClock x).kilns = s.kilns := rfl
@[simp] theorem State.withClock_tracker (x : MillClock) : (s.withClock x).tracker = s.tracker := rfl
@[simp] theorem State.withClock_lots (x : MillClock) : (s.withClock x).lots = s.lots := rfl
@[simp] theorem State.withClock_packs (x : MillClock) : (s.withClock x).packs = s.packs := rfl
@[simp] theorem State.withClock_label (x : MillClock) : (s.withClock x).label = s.label := rfl
@[simp] theorem State.withClock_trace (x : MillClock) : (s.withClock x).trace = s.trace := rfl
@[simp] theorem State.withClock_clock (x : MillClock) : (s.withClock x).clock = x := rfl
@[simp] theorem State.withClock_retention (x : MillClock) : (s.withClock x).retention = s.retention := rfl
@[simp] theorem State.withClock_pending (x : MillClock) : (s.withClock x).pending = s.pending := rfl
@[simp] theorem State.withClock_self (x y : MillClock) : (s.withClock x).withClock y = s.withClock y := rfl

/-! ## withRetention -/

@[simp] theorem State.withRetention_ports (x : Retention) : (s.withRetention x).ports = s.ports := rfl
@[simp] theorem State.withRetention_claims (x : Retention) : (s.withRetention x).claims = s.claims := rfl
@[simp] theorem State.withRetention_library (x : Retention) : (s.withRetention x).library = s.library := rfl
@[simp] theorem State.withRetention_charges (x : Retention) : (s.withRetention x).charges = s.charges := rfl
@[simp] theorem State.withRetention_kilns (x : Retention) : (s.withRetention x).kilns = s.kilns := rfl
@[simp] theorem State.withRetention_tracker (x : Retention) : (s.withRetention x).tracker = s.tracker := rfl
@[simp] theorem State.withRetention_lots (x : Retention) : (s.withRetention x).lots = s.lots := rfl
@[simp] theorem State.withRetention_packs (x : Retention) : (s.withRetention x).packs = s.packs := rfl
@[simp] theorem State.withRetention_label (x : Retention) : (s.withRetention x).label = s.label := rfl
@[simp] theorem State.withRetention_trace (x : Retention) : (s.withRetention x).trace = s.trace := rfl
@[simp] theorem State.withRetention_clock (x : Retention) : (s.withRetention x).clock = s.clock := rfl
@[simp] theorem State.withRetention_retention (x : Retention) : (s.withRetention x).retention = x := rfl
@[simp] theorem State.withRetention_pending (x : Retention) : (s.withRetention x).pending = s.pending := rfl
@[simp] theorem State.withRetention_self (x y : Retention) : (s.withRetention x).withRetention y = s.withRetention y := rfl

/-! ## withPending -/

@[simp] theorem State.withPending_ports (x : List Instr) : (s.withPending x).ports = s.ports := rfl
@[simp] theorem State.withPending_claims (x : List Instr) : (s.withPending x).claims = s.claims := rfl
@[simp] theorem State.withPending_library (x : List Instr) : (s.withPending x).library = s.library := rfl
@[simp] theorem State.withPending_charges (x : List Instr) : (s.withPending x).charges = s.charges := rfl
@[simp] theorem State.withPending_kilns (x : List Instr) : (s.withPending x).kilns = s.kilns := rfl
@[simp] theorem State.withPending_tracker (x : List Instr) : (s.withPending x).tracker = s.tracker := rfl
@[simp] theorem State.withPending_lots (x : List Instr) : (s.withPending x).lots = s.lots := rfl
@[simp] theorem State.withPending_packs (x : List Instr) : (s.withPending x).packs = s.packs := rfl
@[simp] theorem State.withPending_label (x : List Instr) : (s.withPending x).label = s.label := rfl
@[simp] theorem State.withPending_trace (x : List Instr) : (s.withPending x).trace = s.trace := rfl
@[simp] theorem State.withPending_clock (x : List Instr) : (s.withPending x).clock = s.clock := rfl
@[simp] theorem State.withPending_retention (x : List Instr) : (s.withPending x).retention = s.retention := rfl
@[simp] theorem State.withPending_pending (x : List Instr) : (s.withPending x).pending = x := rfl
@[simp] theorem State.withPending_self (x y : List Instr) : (s.withPending x).withPending y = s.withPending y := rfl

end Sys2Proof.Machine
end

