-- ==== Sys2Proof/Laws/Tables.lean ====
section
/-! SUPPORT. What the tables, the key-ordered lists and the identifier count do. -/

namespace Sys2Proof

variable {α : Type} {n : Nat}

@[simp] theorem Table.get_set_same (t : Table α n) (i : Fin n) (a : α) : (t.set i a).get i = a := by
  simp [Table.get, Table.set]

theorem Table.get_set_ne (t : Table α n) {i j : Fin n} (a : α) (h : i ≠ j) : (t.set i a).get j = t.get j := by
  have hv : i.val ≠ j.val := fun e => h (Fin.ext e)
  simp [Table.get, Table.set, hv]

@[simp] theorem Table.get_map {β : Type} (t : Table α n) (f : α → β) (i : Fin n) : (t.map f).get i = f (t.get i) := by
  simp [Table.get, Table.map]

@[simp] theorem Table.get_replicate (a : α) (i : Fin n) : (Table.replicate n a).get i = a := by
  simp [Table.get, Table.replicate]

/-- Two tables that agree in every place are equal. -/
theorem Table.ext_get {t u : Table α n} (h : ∀ i, t.get i = u.get i) : t = u := by
  obtain ⟨a, ha⟩ := t
  obtain ⟨b, hb⟩ := u
  have : a = b := List.ext_getElem (by rw [ha, hb]) fun i h1 _ => h ⟨i, ha ▸ h1⟩
  subst this
  rfl

namespace Machine

variable {key : α → Nat}

theorem mem_keyPut {a x : α} : ∀ {l : List α}, x ∈ keyPut key a l → x = a ∨ x ∈ l
  | [], h => by simpa [keyPut] using h
  | b :: l, h => by
    unfold keyPut at h
    split at h
    · rcases List.mem_cons.1 h with rfl | h
      · exact .inr (List.mem_cons_self ..)
      · exact (mem_keyPut h).imp_right (List.mem_cons_of_mem _)
    · split at h
      · exact (List.mem_cons.1 h).imp_right (List.mem_cons_of_mem _)
      · exact List.mem_cons.1 h

/-- Putting a record keeps the order. -/
theorem rising_keyPut (a : α) : ∀ {l : List α}, Rising key l → Rising key (keyPut key a l)
  | [], _ => List.pairwise_singleton ..
  | b :: l, h => by
    obtain ⟨hb, hl⟩ := List.pairwise_cons.1 h
    unfold keyPut
    split
    · refine List.pairwise_cons.2 ⟨fun x hx => ?_, rising_keyPut a hl⟩
      rcases mem_keyPut hx with rfl | hx
      · assumption
      · exact hb x hx
    · split
      · exact List.pairwise_cons.2 ⟨fun x hx => by have := hb x hx; omega, hl⟩
      · refine List.pairwise_cons.2 ⟨fun x hx => ?_, h⟩
        rcases List.mem_cons.1 hx with rfl | hx
        · omega
        · have := hb x hx; omega

theorem rising_keyErase (k : Nat) {l : List α} (h : Rising key l) : Rising key (keyErase key k l) := List.Pairwise.filter _ h

/-- A change that keeps every key keeps the order. -/
theorem rising_map {f : α → α} (hf : ∀ a, key (f a) = key a) {l : List α} (h : Rising key l) : Rising key (l.map f) :=
  List.pairwise_map.2 (h.imp fun hab => by rwa [hf, hf])

theorem rising_keyModify (k : Nat) {f : α → α} (hf : ∀ a, key a = k → key (f a) = k) {l : List α} (h : Rising key l) :
    Rising key (keyModify key k f l) :=
  rising_map (fun a => by split <;> simp_all) h

@[simp] theorem length_keyModify (k : Nat) (f : α → α) (l : List α) : (keyModify key k f l).length = l.length := by
  simp [keyModify]

theorem length_keyErase (k : Nat) (l : List α) : (keyErase key k l).length ≤ l.length := List.length_filter_le ..

theorem length_keyPut (a : α) : ∀ l : List α, (keyPut key a l).length ≤ l.length + 1
  | [] => by simp [keyPut]
  | b :: l => by
    unfold keyPut
    split
    · simpa using length_keyPut a l
    · split <;> simp

/-- Putting a record whose key is present replaces it. -/
theorem length_keyPut_present (a : α) : ∀ {l : List α}, Rising key l → (∃ x ∈ l, key x = key a) →
    (keyPut key a l).length = l.length
  | [], _, h => by simp at h
  | b :: l, hr, h => by
    obtain ⟨hb, hl⟩ := List.pairwise_cons.1 hr
    obtain ⟨x, hx, hk⟩ := h
    unfold keyPut
    split
    · rename_i hlt
      rcases List.mem_cons.1 hx with rfl | hx
      · omega
      · simpa using length_keyPut_present a hl ⟨x, hx, hk⟩
    · split
      · simp
      · rcases List.mem_cons.1 hx with rfl | hx
        · omega
        · have := hb x hx; omega

/-- What is put is found under its key. -/
theorem keyFind_keyPut_same (a : α) : ∀ l : List α, keyFind key (key a) (keyPut key a l) = some a
  | [] => by simp [keyFind, keyPut]
  | b :: l => by
    unfold keyPut
    split
    · rename_i h
      have hne : key b ≠ key a := by omega
      simpa [keyFind, hne] using keyFind_keyPut_same a l
    · split <;> simp [keyFind]

/-- Other keys find what they found. -/
theorem keyFind_keyPut_ne (a : α) {k : Nat} (h : key a ≠ k) : ∀ l : List α, keyFind key k (keyPut key a l) = keyFind key k l
  | [] => by simp [keyFind, keyPut, h]
  | b :: l => by
    unfold keyPut
    split
    · have ih := keyFind_keyPut_ne a h l
      simp only [keyFind, List.find?_cons] at ih ⊢
      split <;> simp_all
    · split
      · rename_i hb
        have hb' : key b ≠ k := hb ▸ h
        simp [keyFind, h, hb']
      · simp [keyFind, List.find?_cons, h]

theorem keyFind_keyErase_same (k : Nat) (l : List α) : keyFind key k (keyErase key k l) = none := by
  simp [keyFind, keyErase]

theorem keyFind_key {k : Nat} {l : List α} {a : α} (h : keyFind key k l = some a) : key a = k := by
  simpa using List.find?_some h

theorem keyFind_mem {k : Nat} {l : List α} {a : α} (h : keyFind key k l = some a) : a ∈ l := List.mem_of_find?_eq_some h

/-! ## Identifiers -/

/-- The count goes upward from `last` and wraps from `m` to 1, so it stays in 1 to `m`. -/
theorem wrapNext_range {m last : Nat} (h : 0 < m) : 1 ≤ wrapNext m last ∧ wrapNext m last ≤ m := by
  unfold wrapNext; split <;> omega

theorem firstFree_range {m : Nat} (h : 0 < m) (used : List Nat) :
    ∀ fuel last, 1 ≤ firstFree m used fuel last ∧ firstFree m used fuel last ≤ m
  | 0, _ => wrapNext_range h
  | fuel + 1, last => by
    unfold firstFree
    split
    · exact firstFree_range h used fuel _
    · exact wrapNext_range h

theorem newId_range {m : Nat} (h : 0 < m) (used : List Nat) (last : Nat) : 1 ≤ newId m used last ∧ newId m used last ≤ m :=
  firstFree_range h used _ last

end Machine

end Sys2Proof
end

