-- ==== Sys2Proof/Laws/Ops.lean ====
section
/-! SUPPORT. Once for each shared operation over State, everything it can do. -/

namespace Sys2Proof.Machine

variable (s : State) (p q : Port)

/-! ## Ports and claims -/

@[simp] theorem Ports.get_set_same (u : Ports) (x : PortUnit) : (u.set p x).get p = x := by cases p <;> rfl

theorem Ports.get_set_ne (u : Ports) (x : PortUnit) (h : q ≠ p) : (u.set p x).get q = u.get q := by
  cases p <;> cases q <;> first | rfl | exact absurd rfl h

@[simp] theorem Ports.get_map (u : Ports) (f : Port → PortUnit → PortUnit) : (u.map f).get p = f p (u.get p) := by
  cases p <;> rfl

/-- Two sets of port units that agree at every port are equal. -/
theorem Ports.ext_get {u v : Ports} (h : ∀ p, u.get p = v.get p) : u = v := by
  obtain ⟨a, b, c⟩ := u
  obtain ⟨d, e, f⟩ := v
  have h1 := h .K
  have h2 := h .P
  have h3 := h .Y
  simp only [Ports.get] at h1 h2 h3
  subst h1 h2 h3
  rfl

@[simp] theorem State.setPort_port_same (x : PortUnit) : (s.setPort p x).port p = x := by simp [State.setPort, State.port]

theorem State.setPort_port_ne (x : PortUnit) (h : q ≠ p) : (s.setPort p x).port q = s.port q := by
  simp [State.setPort, State.port, Ports.get_set_ne, h]

/-- A port's update changes the port units alone. -/
theorem State.setPort_eq (x : PortUnit) : s.setPort p x = s.withPorts (s.ports.set p x) := rfl

@[simp] theorem Claims.get_set_same (c : Claims) (r : Resource) (x : ClaimRecord) : (c.set r x).get r = x := by
  cases r <;> simp [Claims.get, Claims.set]

theorem Claims.get_set_ne (c : Claims) {r r' : Resource} (x : ClaimRecord) (h : r' ≠ r) : (c.set r x).get r' = c.get r' := by
  cases r <;> cases r' <;> first
    | rfl
    | exact absurd rfl h
    | exact Table.get_set_ne _ _ fun e => h (e ▸ rfl)

@[simp] theorem Claims.get_map (c : Claims) (f : ClaimRecord → ClaimRecord) (r : Resource) :
    (c.map f).get r = f (c.get r) := by
  cases r <;> simp [Claims.get, Claims.map]

@[simp] theorem State.setClaim_claim_same (r : Resource) (x : ClaimRecord) : (s.setClaim r x).claim r = x := by
  simp [State.setClaim, State.claim]

theorem State.setClaim_claim_ne {r r' : Resource} (x : ClaimRecord) (h : r' ≠ r) :
    (s.setClaim r x).claim r' = s.claim r' := by
  simp [State.setClaim, State.claim, Claims.get_set_ne, h]

@[simp] theorem State.setKiln_kiln_same (k : KilnNo) (x : Kiln) : (s.setKiln k x).kiln k = x := by
  simp [State.setKiln, State.kiln]

theorem State.setKiln_kiln_ne {k k' : KilnNo} (x : Kiln) (h : k' ≠ k) : (s.setKiln k x).kiln k' = s.kiln k' := by
  simp [State.setKiln, State.kiln, Table.get_set_ne, Ne.symm h]

/-! ## Alerts (R13) -/

/-- A raise at all three ports changes the port units alone. -/
theorem State.raiseAll_eq (c : Cause) : s.raiseAll c = s.withPorts (s.ports.map fun _ u => u.raise c) := rfl

@[simp] theorem State.raiseAll_port (c : Cause) : (s.raiseAll c).port p = (s.port p).raise c := by
  simp [State.raiseAll, State.port]

/-- A conditional raise changes the port units alone. -/
theorem State.raiseIf_eq (b : Bool) (c : Cause) :
    s.raiseIf b c = s.withPorts (if b then s.ports.map fun _ u => u.raise c else s.ports) := by
  cases b <;> rfl

/-- A raise changes nothing of a port but its pending set. -/
theorem PortUnit.raise_eq (u : PortUnit) (c : Cause) : u.raise c = { u with pending := u.pending ||| (c.bit &&& u.enabled) } :=
  rfl

/-! ## The trace log (R188) -/

/-- A trace write changes the trace log and, through TRACE_MARK, the port units. -/
theorem State.writeTrace_eq (k : KilnNo) (id : Nat) (kind : TraceKind) :
    s.writeTrace k id kind =
      (s.withTrace (s.trace.ready.place (s.traceRecord k id kind))).withPorts
        (if s.trace.ready.reaches then s.ports.map fun _ u => u.raise .traceMark else s.ports) := by
  simp [State.writeTrace, State.raiseIf_eq]

/-! ## Events and takes (R6, R199) -/

/-- An event always answers a next state, and that is the state itself unless the part runs. -/
theorem event_eq (f : State → State) : event f s = .next (if s.retention.phase = .running then f s else s) := rfl

theorem event_running {f : State → State} (h : s.retention.phase = .running) : event f s = .next (f s) := by
  simp [event, h]

/-- Handing an answer back changes the port units alone. -/
theorem State.handBack_eq (r : Request) (v : Verdict) :
    s.handBack p r v = s.withPorts (s.ports.set p { s.port p with
      slot := .taken r
      inFlight := (s.port p).inFlight ++ [((s.port p).ticket, { kind := r.kind, tag := r.tag, verdict := v })] }) := rfl

theorem answered_done {act : Act} {p : Port} {r : Request} {s t : State} {b : List Field} (h : act p r s = .ok (t, b)) :
    answered act p r s = t.handBack p r (.done b) := by simp [answered, h]

theorem answered_refused {act : Act} {p : Port} {r : Request} {s : State} {e : Reason} (h : act p r s = .error e) :
    answered act p r s = s.handBack p r (.refused e) := by simp [answered, h]

/-- Everything a take can do: nothing where the part does not run or no request of its kind is POSTED at the port, a DONE, or
a REFUSED that leaves every block as it was. -/
theorem takeRequest_cases {code : Byte} {act : Act} {p : Port} {s : State} {res : Result} (h : takeRequest code act p s = res) :
    (res = .next s ∧ (s.retention.phase ≠ .running ∨ s.offered p code = none)) ∨
    (∃ r t b, s.offered p code = some r ∧ act p r s = .ok (t, b) ∧ res = .next (t.handBack p r (.done b))) ∨
    (∃ r e, s.offered p code = some r ∧ act p r s = .error e ∧ res = .next (s.handBack p r (.refused e))) := by
  subst h
  unfold takeRequest event
  split
  · cases ho : s.offered p code with
    | none => exact .inl ⟨by simp [ho], .inr rfl⟩
    | some r =>
      cases ha : act p r s with
      | error e => exact .inr (.inr ⟨r, e, rfl, ha, by simp [ho, answered, ha]⟩)
      | ok x => exact .inr (.inl ⟨r, x.1, x.2, rfl, by simp [ha], by simp [ho, answered, ha]⟩)
  · exact .inl ⟨rfl, .inl ‹_›⟩

/-- A take in the running part of a POSTED request of its kind whose act is DONE. -/
theorem takeRequest_done {code : Byte} {act : Act} {p : Port} {s t : State} {r : Request} {b : List Field}
    (hp : s.retention.phase = .running) (hs : (s.port p).slot = .posted r) (hk : r.kind = code) (h : act p r s = .ok (t, b)) :
    takeRequest code act p s = .next (t.handBack p r (.done b)) := by
  simp [takeRequest, event, hp, State.offered, hs, hk, answered, h]

/-- The same for an act that refuses. -/
theorem takeRequest_refused {code : Byte} {act : Act} {p : Port} {s : State} {r : Request} {e : Reason}
    (hp : s.retention.phase = .running) (hs : (s.port p).slot = .posted r) (hk : r.kind = code) (h : act p r s = .error e) :
    takeRequest code act p s = .next (s.handBack p r (.refused e)) := by
  simp [takeRequest, event, hp, State.offered, hs, hk, answered, h]

end Sys2Proof.Machine
end

