-- ==== Sys2Proof/Laws/Trace.lean ====
section
/-! SUPPORT. What writes to a trace log that is clear of a wrap do (R187, R188, R191): the log after one record, after more, and the
TRACE_MARK they raise. -/

namespace Sys2Proof.Machine

variable (g : TraceLog) (s : State)

@[simp] theorem TraceLog.after_next (l : List TraceRecord) : (g.after l).next = g.next + l.length := rfl

@[simp] theorem TraceLog.after_mark (l : List TraceRecord) :
    (g.after l).mark = if g.markReached l.length then none else g.mark := rfl

theorem TraceLog.Clear.mono {g : TraceLog} {m n : Nat} (h : g.Clear n) (le : m ≤ n) : g.Clear m :=
  ⟨h.ring, h.next, by have := h.room; omega⟩

/-- A write to a clear log empties it of nothing. -/
theorem TraceLog.Clear.ready_eq {g : TraceLog} {n : Nat} (h : g.Clear n) : g.ready = g := by
  unfold TraceLog.ready TraceLog.wrapped
  rcases h.next with h | ⟨h, h'⟩
  · simp [show ¬g.next = 1 by omega]
  · simp [h']

/-- No record leaves a clear log as it was. -/
theorem TraceLog.after_nil {n : Nat} (h : g.Clear n) : g.after [] = g := by
  have hr := h.ring
  have e : g.ring.length - 2048 = 0 := by omega
  obtain ⟨ring, next, mark⟩ := g
  cases mark <;> simp_all [TraceLog.after, TraceLog.markReached]

/-- A log stands clear for the rest of the writes after some of them. -/
theorem TraceLog.Clear.after {g : TraceLog} {n : Nat} (h : g.Clear n) (l : List TraceRecord) (hl : l.length ≤ n) :
    (g.after l).Clear (n - l.length) := by
  refine ⟨?_, ?_, ?_⟩
  · simp only [TraceLog.after, List.length_drop]; omega
  · rcases l with _ | ⟨x, l⟩
    · rw [TraceLog.after_nil g h]; exact h.next
    · left
      have : 1 ≤ g.next := by rcases h.next with h | h <;> omega
      simp; omega
  · have := h.room
    simp; omega

theorem TraceLog.markReached_iff (n : Nat) :
    g.markReached n = true ↔ ∃ m, g.mark = some m ∧ 0 < n ∧ m < g.next + n := by
  unfold TraceLog.markReached
  cases g.mark <;> simp

/-- Records reach the mark when the first of them do or, with the mark still there, the rest. -/
theorem TraceLog.markReached_add (l : List TraceRecord) (n : Nat) :
    g.markReached (l.length + n) = (g.markReached l.length || (g.after l).markReached n) := by
  rw [Bool.eq_iff_iff, Bool.or_eq_true]
  simp only [TraceLog.markReached_iff, TraceLog.after_next, TraceLog.after_mark]
  constructor
  · rintro ⟨m, e, h⟩
    by_cases h' : ∃ m, g.mark = some m ∧ 0 < l.length ∧ m < g.next + l.length
    · exact .inl h'
    · refine .inr ⟨m, ?_, ?_, by omega⟩
      · rw [if_neg h', e]
      · by_contra hn
        exact h' ⟨m, e, by omega⟩
  · rintro (⟨m, e, h⟩ | ⟨m, e, h⟩)
    · exact ⟨m, e, by omega⟩
    · split at e
      · cases e
      · exact ⟨m, e, by omega⟩

/-- The newest `N` of a list to which more is appended in two parts. -/
theorem drop_newest {α : Type} (N : Nat) (R a b : List α) :
    ((R ++ a).drop ((R ++ a).length - N) ++ b).drop (((R ++ a).drop ((R ++ a).length - N) ++ b).length - N) =
      (R ++ (a ++ b)).drop ((R ++ (a ++ b)).length - N) := by
  rw [← List.append_assoc]
  generalize R ++ a = A
  rw [← List.drop_append_of_le_length (by omega), List.drop_drop]
  simp only [List.length_drop, List.length_append]
  by_cases h : N ≤ A.length
  · congr 1; omega
  · congr 1; omega

/-- Records written in two parts are the records written in one. -/
theorem TraceLog.after_append (l m : List TraceRecord) : (g.after l).after m = g.after (l ++ m) := by
  have ring : ((g.after l).after m).ring = (g.after (l ++ m)).ring := by
    have e := drop_newest 2048 g.ring (l.mapIdx fun i x => { x with seq := g.next + i })
      (m.mapIdx fun i x => { x with seq := g.next + l.length + i })
    simp only [TraceLog.after, List.mapIdx_append]
    rw [e]
    simp only [Nat.add_assoc, Nat.add_comm l.length]
  have mark : ((g.after l).after m).mark = (g.after (l ++ m)).mark := by
    simp only [TraceLog.after_mark, List.length_append, g.markReached_add l m.length]
    cases g.markReached l.length <;> simp
  have next : ((g.after l).after m).next = (g.after (l ++ m)).next := by
    simp only [TraceLog.after_next, List.length_append]; omega
  cases h : (g.after l).after m
  cases h' : g.after (l ++ m)
  simp_all

/-- The record a write places is what R187 gives, under the next sequence. -/
theorem State.traceRecord_eq (k : KilnNo) (id : Nat) (kind : TraceKind) :
    s.traceRecord k id kind = { recordOf s.clock k id ((s.charge id).bind Charge.controlling) (s.kiln k) kind
      (match s.charge id with | some c => c.state.name | none => .empty) with seq := s.trace.next } := by
  unfold State.traceRecord recordOf MillClock.stamp Kiln.freshReport
  cases s.charge id <;> cases (s.kiln k).report with
  | none => simp
  | some r =>
    obtain ⟨dry, wet, cores⟩ := r
    cases (s.kiln k).stale <;> cases cores <;> simp [Actual.usable, minCore, List.min?]

/-- One write to a clear log: the log after the record, and TRACE_MARK where it reaches the mark. -/
theorem State.writeTrace_after (k : KilnNo) (id : Nat) (kind : TraceKind) (h : s.trace.Clear 1) :
    (s.writeTrace k id kind).trace = s.trace.after [s.traceRecord k id kind] ∧
    ∀ q, (s.writeTrace k id kind).port q = { s.port q with
      pending := (s.port q).pending ||| ((s.port q).enabled &&& if s.trace.markReached 1 then 0x010000 else 0) } := by
  have hr := h.ring
  have hroom := h.room
  have hreach : s.trace.reaches = s.trace.markReached 1 := by
    unfold TraceLog.reaches TraceLog.markReached
    cases s.trace.mark <;> simp
  unfold State.writeTrace
  rw [h.ready_eq, hreach]
  constructor
  · have : s.trace.place (s.traceRecord k id kind) = s.trace.after [s.traceRecord k id kind] := by
      unfold TraceLog.place TraceLog.after placeNewest
      rw [hreach]
      have e : wrapNext max32 s.trace.next = s.trace.next + 1 := by
        unfold wrapNext max32; rw [if_pos (by omega)]
      rw [e]
      have e2 : ({ s.traceRecord k id kind with seq := s.trace.next + 0 } : TraceRecord) = s.traceRecord k id kind := rfl
      simp only [List.mapIdx_cons, List.mapIdx_nil, e2, List.length_append, List.length_cons, List.length_nil, Nat.zero_add]
      by_cases hh : 2048 ≤ s.trace.ring.length
      · rw [if_pos (show Config.ringRecords ≤ _ from hh), show s.trace.ring.length + 1 - 2048 = 1 by omega,
          List.drop_append_of_le_length (by omega)]
      · rw [if_neg (show ¬Config.ringRecords ≤ _ from hh), show s.trace.ring.length + 1 - 2048 = 0 by omega]
        rfl
    rw [this]
    unfold State.raiseIf
    split <;> rfl
  · intro q
    unfold State.raiseIf
    split
    · simp only [State.raiseAll_port, PortUnit.raise, Cause.bit, Cause.number, BitVec.and_comm]
      rfl
    · simp
      rfl

end Sys2Proof.Machine
end

