-- ==== Sys2Proof/Tests/Slice0.lean ====
section
/-! SUPPORT. The tests: the WellFormed smoke tests, worked cases of the manual, and for every statement with hypotheses a
witness that they are met. Every expected result comes from the manual's tables and sequences, which each test names. -/

namespace Sys2Proof.Machine.Tests

-- One theorem after the other: each kernel evaluation at work at once takes a thread of its own, with its stack.
set_option Elab.async false

/-! ## Helpers -/

/-- The state a command answers. -/
def after (c : Instr) (s : State) : State :=
  match exec c s with
  | .next t => t
  | _ => State.reset

/-- `s` with a request POSTED at a port, with tag 0x0040. -/
def posted (p : Port) (kind : Byte) (body : List Byte) (s : State) : State :=
  s.setPort p { s.port p with slot := .posted ⟨kind, 0x0040, body⟩ }

/-- The request that `posted` posts. -/
def rq (kind : Byte) (body : List Byte) : Request := ⟨kind, 0x0040, body⟩

/-- What a port has last been answered and has not arrived. -/
def verdict (p : Port) (s : State) : Option Verdict := (s.port p).inFlight.getLast?.map fun x => x.2.verdict

/-- Every claim owned by a port. -/
def ownedBy (p : Port) : Claims :=
  { kilns := .replicate 12 ⟨some p, false⟩, planer := ⟨some p, false⟩, library := ⟨some p, false⟩,
    printer := ⟨some p, false⟩ }

def oak : Species := ⟨7, [0x4F, 0x41, 0x4B], 1126, -6, 6⟩

/-- A TIME schedule and a MOISTURE schedule. -/
def timed : Schedule := ⟨2, 190, 30, none, none, 450, 720, .time [⟨430, 25, 3⟩, ⟨460, 55, 2⟩]⟩
def moist : Schedule :=
  ⟨3, 190, 50, some ⟨820, 60, 15, 1440⟩, some ⟨820, 25, 480⟩, 450, 720,
    .moisture [⟨430, 25, 600, 0, 5⟩, ⟨460, 55, 350, 1, 0⟩]⟩

def library : Library := { Library.cold with species := [oak], schedules := [timed, moist] }

/-- A charge of oak, 50 mm. -/
def charge (id : Nat) (state : ChargeState) : Charge := { newCharge id 7 50 180000 with state := state }

/-- The reset state with oak and the two schedules, every claim owned by port K, and some charges. -/
def base (cs : List Charge) : State :=
  { State.reset with library := library, claims := ownedBy .K, charges := ⟨cs, 341⟩ }

/-- `base` with one charge, 204, in kiln 2 under schedule `n`. -/
def dryer (state : ChargeState) (n : Nat) (kl : Kiln) : State :=
  let c := { charge 204 state with kiln := some 1, schedule := some n, finalTarget := some 190 }
  let s := base [c]
  { s with kilns := s.kilns.set 1 { kl with link := some 204 } }

/-- A running kiln with a target. -/
def running (dry : Nat) (t : KilnTarget) : Kiln :=
  { Kiln.cold with dry := dry, wet := dry - t.depression, target := some t, step := 1, timer := true }

/-- A run of boards of oak with charge 204 as its source. -/
def planing : Run :=
  { number := 5, state := .isOpen, species := 7, thickness := 50, wetBand := 30, dryBand := 40, policy := .redry,
    sources := [204], nextSeq := 8, queueA := [], queueB := [], counters := .zero, aOverrun := false, aUnderrun := false,
    bOverrun := false, meter := .ok, voidRun := 0, history := [] }

/-- A board of charge 204. -/
def board (seq : Nat) (cls : Option BoardClass) (reading : Option Nat) : Board := ⟨seq, 204, reading, false, cls⟩

/-- The planer line with a run, charge 204 PLANING. -/
def line (n : Run) : State :=
  let s := base [{ charge 204 .planing with finalTarget := some 190 }]
  { s with tracker := { s.tracker with run := some n } }

/-- A pack of bin 4. -/
def pack (id : Nat) (state : PackState) : Pack :=
  { openedPack id 4 ⟨7, 50, 150, 3, 6⟩ none with
    state := state, pieces := 1, volume := 36000, contributors := [⟨204, 1⟩], metered := 1, mcSum := 171, mcMin := some 171
    mcMax := some 171 }

/-- `base` with some packs, charge 204 listed. -/
def yard (l : List Pack) (e : LabelEngine) : State :=
  let s := base [{ charge 204 .planed with finalTarget := some 190, refs := 1 }]
  { s with packs := { s.packs with packs := l, lastId := 311 }, label := e }

/-! ## WellFormed: each check refuses an ill-formed command -/

theorem test_known_kind_is_no_unknown_transfer : wellFormed (.unknownTransfer .K 0xC1 (.rises [])) = false := by decide
theorem test_seize_comes_from_port_Y_only : wellFormed (.seize .K) = false := by decide
theorem test_board_grade_comes_from_port_P_only : wellFormed (.boardGrade .Y false) = false := by decide
theorem test_kiln_report_comes_from_port_K_only : wellFormed (.kilnReport .P) = false := by decide
theorem test_define_charge_comes_not_from_port_P : wellFormed (.defineCharge .P) = false := by decide
theorem test_start_writes_no_thirteenth_record : wellFormed (.warmStart true false (.cut true true 13)) = false := by decide
theorem test_start_writes_no_record_before_the_kilns :
    wellFormed (.warmStart true false (.cut false true 1)) = false := by decide
theorem test_well_formed_commands :
    wellFormed (.unknownTransfer .K 0xC8 (.rises [])) = true ∧ wellFormed (.seize .Y) = true ∧
      wellFormed (.warmStart true false (.cut true false 12)) = true := by decide

/-- No row of the table has bits (log 27). -/
theorem test_no_word_spells_a_command : decodeTableWord 8 0xC1 = none := by decide

/-- The kind bytes of R21, read from its table, and two bytes that stand beside them. -/
theorem test_kind_bytes_spell_their_transfers :
    frameCommand .P 0xC1 .falls = .post .P .falls ∧ frameCommand .K 0xC3 .falls = .fetch .K .falls ∧
      frameCommand .Y 0xC7 .falls = .mask .Y .falls ∧ frameCommand .Y 0xCF .falls = .portReset .Y .falls ∧
      frameCommand .K 0xC0 .falls = .unknownTransfer .K 0xC0 .falls ∧
      frameCommand .K 0xC8 .falls = .unknownTransfer .K 0xC8 .falls := by decide

/-! ## Chapter 1 -/

/-- "Worked sequence: an answer staged behind an unfetched answer": the FETCH completes in full. -/
theorem test_fetch_moves_the_staged_answer :
    let a : Answer := ⟨0x36, 0x0101, .done []⟩
    let b : Answer := ⟨0x30, 0x0102, .done []⟩
    let s := State.reset.setPort .K { State.reset.port .K with slot := .doneWaiting b, buffer := some a }
    let t := after (.fetch .K (.rises [0, 0, 0, 0, 0])) s
    (t.port .K).slot = .empty ∧ (t.port .K).buffer = some b ∧ (t.port .K).sent = [0xF0, 4, 0x36, 0x01, 0x01, 0x00] := by decide

/-- The same sequence: a POST while DONE_WAITING is SLOT_BUSY. -/
theorem test_post_to_a_full_slot :
    let s := State.reset.setPort .K { State.reset.port .K with slot := .doneWaiting ⟨0x30, 0x0102, .done []⟩ }
    ((after (.post .K (.rises [0x36, 0x01, 0x03, 1, 4])) s).port .K).last = .slotBusy := by decide

/-- R4, R5: a POST of KILN REPORT from port P is refused by the port unit. -/
theorem test_post_from_the_wrong_port :
    let t := after (.post .P (.rises [0x30, 0, 0x40, 1, 4])) State.reset
    verdict .P t = some (.refused .wrongPort) ∧ (t.port .P).ticket = 1 := by decide

/-- "Worked sequence: withdrawal against the take", its second row. -/
theorem test_withdraw_after_the_take :
    let s := State.reset.setPort .P { State.reset.port .P with slot := .taken (rq 0x41 [0, 1]) }
    ((after (.withdraw .P (.rises [])) s).port .P).last = .tooLate := by decide

/-- R11, R21: the PEEK record of port Y after a cold start. -/
theorem test_peek_after_a_cold_start :
    ((after (.peek .Y (.rises (List.replicate 15 0))) State.reset).port .Y).sent =
      [0x10, 0, 0, 0x04, 0, 0, 0x05, 0xFB, 0xDA, 0, 0, 0, 0, 0, 0, 0] := by decide

/-- R12: a changed note flag is told to the other two ports; NOTE_CHANGED is not in Y's default enable set. -/
theorem test_note_changes_flags :
    let s := State.reset.setPort .K { State.reset.port .K with enabled := 0x000004 }
    let t := after (.note .P (.rises [0xF2])) s
    (t.port .P).notes = 2 ∧ (t.port .K).pending = 0x040004 := by decide

/-- R16, R17: ACK of RESTARTED releases the line; MASK drops bits 19 to 23. -/
theorem test_ack_and_mask :
    ((after (.ack .K (.rises [0x04, 0, 0])) State.reset).port .K).attention = false ∧
      ((after (.mask .K (.rises [0xFF, 0, 1])) State.reset).port .K).enabled = 0x070001 := by decide

/-- R18, R32: PORT RESET frees the port's claims that are not seized. -/
theorem test_port_reset_frees_claims :
    let s := { State.reset with claims := ownedBy .P }
    ((after (.portReset .P (.rises [])) s).claim .planer).owner = none := by decide

/-- R2: a short frame counts; a frame of an unknown kind is BAD_TRANSFER. -/
theorem test_short_and_unknown_frames :
    ((after (.ack .K (.rises [1, 2])) State.reset).port .K).errors = 1 ∧
      ((after (.unknownTransfer .K 0x00 (.rises [])) State.reset).port .K).last = .badTransfer := by decide

/-- R6: an answer arrives at an empty buffer; the slot becomes EMPTY. -/
theorem test_answer_arrives :
    let a : Answer := ⟨0x41, 0x0040, .refused .badState⟩
    let s := State.reset.setPort .P { State.reset.port .P with slot := .taken (rq 0x41 []), inFlight := [(0, a)] }
    let t := after (.answerArrival .P 0) s
    (t.port .P).slot = .empty ∧ (t.port .P).buffer = some a := by decide

/-- R2, R3: a frame in pieces; the status byte is that of the fall of chip select. -/
theorem test_frame_in_pieces :
    let s := after (.note .K (.bytes [])) (after (.note .K .falls) State.reset)
    ((after (.note .K (.rises [5])) s).port .K).notes = 5 := by decide

/-! ## Chapter 2: "Seizure against a posted LOAD" -/

theorem test_seize_from_K :
    let s := { State.reset with claims := ownedBy .K }
    let t := after (.seize .Y) (posted .Y 0x03 [5] s)
    (t.claim (.kiln 4)) = ⟨some .Y, true⟩ ∧ (t.port .K).pending = 0x040002 ∧
      verdict .Y t = some (.done [.num 1 5, .num 1 1, .flag false]) := by decide

theorem test_load_after_the_seizure :
    let s := { State.reset with claims := ownedBy .Y }
    verdict .K (after (.load .K) (posted .K 0x22 [5, 0, 1, 2] s)) = some (.refused .notOwner) := by decide

theorem test_claim_and_release :
    let s := after (.claim .P) (posted .P 0x01 [13] State.reset)
    (s.claim .planer).owner = some .P ∧ ((after (.release .P) (posted .P 0x02 [13] s)).claim .planer).owner = none := by decide

/-! ## Chapters 3 and 12: the library -/

theorem test_species :
    let s := after (.putSpecies .K) (posted .K 0x10 [9, 3, 0x41, 0x53, 0x48, 4, 0, 0xFA, 6] (base []))
    s.species 9 = some ⟨9, [0x41, 0x53, 0x48], 1024, -6, 6⟩ ∧
      ((after (.deleteSpecies .K) (posted .K 0x11 [9] s)).species 9) = none := by decide

theorem test_species_in_use :
    verdict .K (after (.deleteSpecies .K) (posted .K 0x11 [7] (base [charge 1 .staged]))) = some (.refused .inUse) := by decide

theorem test_species_query :
    verdict .P (after (.speciesQuery .P) (posted .P 0x12 [7] (base [charge 1 .staged]))) =
      some (.done [.num 1 7, .text oak.label, .num 2 1126, .int 1 (-6), .num 1 6, .num 1 1]) := by decide

/-- "Worked sequence: validating a moisture schedule": step 4's threshold exceeds step 3's. -/
def thresholdsOf (fourth : Nat) : List Byte :=
  [3, 1] ++ beBytes 2 80 ++ [30, 1] ++ beBytes 3 (820 * 4096 + 60) ++ [15] ++ beBytes 2 1440 ++
    [1] ++ beBytes 3 (820 * 4096 + 25) ++ beBytes 2 480 ++ beBytes 2 450 ++ beBytes 2 720 ++ [6] ++
    ([(430, 25, 600), (430, 35, 450), (460, 55, 350), (490, 85, fourth), (600, 140, 250), (710, 220, 150)].flatMap fun x =>
      beBytes 3 (x.1 * 4096 + x.2.1) ++ beBytes 2 x.2.2 ++ beBytes 2 0 ++ beBytes 2 0)

theorem test_put_schedule_bad_threshold :
    (thresholdsOf 380).length = 77 ∧
      verdict .K (after (.putSchedule .K) (posted .K 0x13 (thresholdsOf 380) (base []))) = some (.refused (.badField 34)) := by
  decide +kernel

theorem test_put_schedule_corrected :
    verdict .K (after (.putSchedule .K) (posted .K 0x13 (thresholdsOf 300) (base []))) =
      some (.done [.num 1 3, .flag true, .num 1 6]) := by decide +kernel

theorem test_delete_and_query_schedule :
    (after (.deleteSchedule .K) (posted .K 0x14 [2] (base []))).schedule 2 = none ∧
      verdict .Y (after (.scheduleQuery .Y) (posted .Y 0x15 [4] (base []))) = some (.refused .noSuch) := by decide

theorem test_grade_text_and_bands :
    verdict .K (after (.putGradeText .K) (posted .K 0x16 [3, 1, 0x41] (base []))) =
        some (.done [.num 1 3, .text [0x47, 0x52, 0x41, 0x44, 0x45, 0x33]]) ∧
      bandOf defaultBands 4800 = 6 ∧ bandOf defaultBands 4801 = 7 ∧ bandOf defaultBands 9000 = 8 := by decide

theorem test_length_bands_read :
    ((after (.putLengthBands .K) (posted .K 0x17 [0] (base []))).library.bands) = defaultBands := by decide

theorem test_parameters :
    let s := after (.putParameter .K) (posted .K 0x90 [4, 0, 60] (base []))
    s.param 4 = 60 ∧ verdict .K s = some (.done [.num 1 4, .num 2 10, .num 2 60]) ∧
      verdict .Y (after (.parameterQuery .Y) (posted .Y 0x91 [4] s)) = some (.done [.num 1 4, .num 2 60]) := by decide

theorem test_parameter_out_of_range :
    verdict .K (after (.putParameter .K) (posted .K 0x90 [4, 0, 61] (base []))) = some (.refused (.badField 2)) := by decide

/-! ## Chapters 4 and 6: charges and samples -/

/-- "Worked sequence: id assignment across a wrap". -/
theorem test_ids_across_a_wrap :
    newId 65535 [65535, 1, 3] 65533 = 65534 ∧ newId 65535 [65534, 65535, 1, 3] 65534 = 2 ∧
      newId 65535 [65534, 65535, 1, 2, 3] 2 = 4 ∧ newId 65535 [65534, 65535, 2, 3, 4] 4 = 5 := by decide

theorem test_define_charge :
    let t := after (.defineCharge .K) (posted .K 0x20 [7, 50, 0, 2, 0xBF, 0x20] (base [charge 341 .staged]))
    t.charges.lastId = 342 ∧ (t.charge 342).map Charge.volume = some 180000 := by decide

/-- "Worked cases: oven-dry weight". -/
theorem test_oven_dry_weights :
    ovenDryWeight 4520 812 = 2494 ∧ ovenDryWeight 4521 1000 = 2261 ∧ ovenDryWeight 100 2000 = 33 ∧
      ovenDryWeight 50000 50 = 47619 ∧ ovenDryWeight 3980 640 = 2427 ∧ ovenDryWeight 5210 905 = 2735 := by decide

/-- "Worked sequence: three sample boards". -/
theorem test_set_samples :
    let body : List Byte := beBytes 2 341 ++ [3] ++ beBytes 2 4520 ++ beBytes 2 812 ++ beBytes 2 3980 ++ beBytes 2 640 ++
      beBytes 2 5210 ++ beBytes 2 905
    verdict .K (after (.setSamples .K) (posted .K 0x21 body (base [charge 341 .staged]))) =
      some (.done [.num 2 341, .num 1 3, .num 1 1, .num 2 2494, .num 1 2, .num 2 2427, .num 1 3, .num 2 2735]) := by decide

/-- The three samples of charge 341. -/
def boards341 : List Sample :=
  [⟨1, 4520, 812, 2494, .noReport⟩, ⟨2, 3980, 640, 2427, .noReport⟩, ⟨3, 5210, 905, 2735, .noReport⟩]

/-- "Worked sequence: weighing charge 341", its four requests. -/
theorem test_weighing_charge_341 :
    let a := weighAll boards341 [3100, 3131, 3490]
    let b := weighAll a [2480, 0, 0]
    let c := weighAll b [0, 0, 2700]
    let d := weighAll c [3050, 0, 0]
    (controllingOf a, wettestOf a) = (some 283, some 290) ∧ (controllingOf b, wettestOf b) = (some 290, some 290) ∧
      (controllingOf c, wettestOf c) = (none, some 290) ∧ (controllingOf d, wettestOf d) = (some 290, some 290) := by decide

/-- "Worked cases: current sample MC" with OD 2494, and 2000. -/
theorem test_current_mc :
    currentMC 2494 3100 = 243 ∧ currentMC 2494 2494 = 0 ∧ currentMC 2000 2001 = 1 ∧
      (⟨1, 0, 0, 2494, .noReport⟩ : Sample).weigh 49900 = ⟨1, 0, 0, 2494, .valid 49900 2000⟩ ∧
      (⟨1, 0, 0, 2494, .noReport⟩ : Sample).weigh 2493 = ⟨1, 0, 0, 2494, .suspect 2493 0⟩ := by decide

/-- The third request of the same sequence: SAMPLES_SHORT. -/
theorem test_sample_weights_samples_short :
    let c := { charge 341 (.active .drying) with
      samples := weighAll (weighAll boards341 [3100, 3131, 3490]) [2480, 0, 0], controlling := some 290, wettest := some 290 }
    let body : List Byte := beBytes 2 341 ++ [3] ++ beBytes 2 0 ++ beBytes 2 0 ++ beBytes 2 2700
    let s := (base [c]).setPort .Y { (base [c]).port .Y with enabled := 0x000040 }
    let t := after (.sampleWeights .K) (posted .K 0x26 body s)
    (t.charge 341).map Charge.controlling = some none ∧ (t.port .Y).pending = 0x040040 := by decide

/-- "Worked cases: controlling MC at other counts". -/
theorem test_controlling_at_other_counts :
    let of (l : List Nat) : List Sample := l.map fun m => ⟨1, 0, 0, 100, .valid 100 m⟩
    controllingOf (of [243, 318, 276, 205, 290]) = some 295 ∧ controllingOf (of [305, 300, 210, 180]) = some 303 ∧
      controllingOf (of [400, 400, 400, 120, 90, 85, 80]) = some 330 ∧ controllingOf (of [150, 150]) = some 150 ∧
      controllingOf (of [150]) = none := by decide

/-- "Worked sequence: one charge from definition to retirement": LOAD of charge 204 into kiln 6 under schedule 2. -/
theorem test_load :
    let t := after (.load .K) (posted .K 0x22 [6, 0, 204, 2] (base [charge 204 .staged]))
    (t.charge 204).map (fun c => (c.state, c.kiln, c.schedule, c.finalTarget)) = some (.loaded, some 5, some 2, some 190) ∧
      t.inUse 2 = 1 ∧ (t.kiln 5).link = some 204 ∧ t.trace.ring.map TraceRecord.kind = [.load] := by decide

theorem test_unload_of_a_dried_charge :
    let t := after (.unload .K) (posted .K 0x23 [2, 0, 204] (dryer .dried 2 Kiln.cold))
    (t.charge 204).map (fun c => (c.state, c.kiln)) = some (.released, none) ∧ (t.kiln 1).link = none := by decide

theorem test_retire_charge :
    let t := after (.retireCharge .Y) (posted .Y 0x24 [0, 204] (base [charge 204 .planed]))
    t.charges.entries = [] ∧ verdict .Y t = some (.done [.num 2 204, .num 2 0, .num 2 0, .num 2 0, .num 4 0]) := by decide

theorem test_charge_query_lists :
    verdict .P (after (.chargeQuery .P) (posted .P 0x25 [0, 0] (base [charge 204 .planed]))) =
      some (.done [.num 1 1, .num 2 204, .sym (.state .planed), .num 1 0]) := by decide

/-! ## Chapters 5 and 6: kilns -/

/-- "Worked cases: ramp", cases 1 to 3. -/
theorem test_ramp :
    rampMinute 600 660 0 50 = (600, 50) ∧ rampMinute 600 660 50 50 = (601, 40) ∧ rampMinute 604 660 10 50 = (605, 0) ∧
      rampMinute 600 605 0 200 = (603, 20) ∧ rampMinute 603 605 20 200 = (605, 0) ∧ rampMinute 710 450 0 120 = (708, 0) ∧
      wetOf 350 400 = 0 := by decide

theorem test_kiln_report :
    let t := after (.kilnReport .K) (posted .K 0x30 ([2] ++ beBytes 2 285 ++ beBytes 2 1501 ++ [1] ++ beBytes 2 562)
      (dryer .loaded 2 Kiln.cold))
    (t.kiln 1).report = some ⟨⟨285, true⟩, ⟨1501, false⟩, [562]⟩ := by decide

theorem test_start :
    let t := after (.start .K) (posted .K 0x31 [2] (dryer .loaded 2 Kiln.cold))
    (t.charge 204).map Charge.state = some (.active .drying) ∧ (t.kiln 1).dry = 430 ∧ (t.kiln 1).wet = 405 ∧
      (t.kiln 1).step = 1 ∧ (t.kiln 1).timer = true := by decide

theorem test_hold_and_resume :
    let s := after (.hold .K) (posted .K 0x32 [2] (dryer (.active .drying) 2 (running 400 ⟨430, 25⟩)))
    (s.charge 204).map Charge.state = some (.held .drying .command) ∧
      ((after (.resume .K) (posted .K 0x33 [2] s)).charge 204).map Charge.state = some (.active .drying) := by decide

theorem test_skip_step :
    let t := after (.skipStep .K) (posted .K 0x34 [2] (dryer (.active .drying) 2 (running 400 ⟨430, 25⟩)))
    (t.kiln 1).step = 2 ∧ (t.kiln 1).target = some ⟨460, 55⟩ ∧ (t.kiln 1).wet = 345 := by decide

theorem test_stop :
    let t := after (.stop .K) (posted .K 0x35 [2] (dryer (.active .drying) 2 (running 400 ⟨430, 25⟩)))
    (t.charge 204).map (fun c => (c.state, c.flags.earlyStop)) = some (.active .cooling, true) ∧
      (t.kiln 1).target = some ⟨450, 0⟩ := by decide

theorem test_kiln_status_of_an_empty_kiln :
    verdict .P (after (.kilnStatus .P) (posted .P 0x36 [0] (base []))) = some (.refused (.badField 1)) := by decide

/-- "Worked sequence: certification through a hold": expiry 43. -/
theorem test_certification_in_a_hold :
    let kl := { running 400 ⟨430, 25⟩ with report := some ⟨⟨400, true⟩, ⟨380, true⟩, [565]⟩ }
    let s := (dryer (.held .drying .command) 2 kl).modifyCharge 204 fun c => { c with htAccrual := 29 }
    ((after (.kilnMinuteExpiry 1) s).charge 204).map (fun c => (c.htAccrual, c.flags.htCertified)) = some (30, true) := by
  decide

/-- R80, R86: an on-minute completes the third minute of a TIME step. -/
theorem test_minute_ends_a_time_step :
    let kl := { running 430 ⟨430, 25⟩ with report := some ⟨⟨430, true⟩, ⟨405, true⟩, []⟩, stepOn := 2 }
    let t := after (.kilnMinuteExpiry 1) (dryer (.active .drying) 2 kl)
    (t.kiln 1).step = 2 ∧ (t.kiln 1).stepOn = 0 ∧ (t.kiln 1).phaseOn = 1 := by decide

/-! ## Chapters 6 and 7: the planer line -/

/-- "Worked cases: meter correction". -/
theorem test_meter_correction :
    let sp (f : Nat) (o : Int) (c : Nat) : Species := ⟨7, [], f, o, c⟩
    correctedMC (sp 1126 (-6) 6) 152 4 = 171 ∧ correctedMC (sp 1126 (-6) 1) 152 15 = 162 ∧
      correctedMC (sp 1126 (-6) 1) 152 25 = 160 ∧ conditionRaw 655 = (600, true) ∧
      correctedMC (sp 1126 (-6) 6) 600 22 = 600 ∧ conditionTemp 95 = 80 ∧ correctedMC (sp 1024 (-6) 40) 0 80 = 0 ∧
      correctedMC (sp 1024 0 40) 512 20 = 512 := by decide

/-- "Worked cases: classification". -/
theorem test_classification :
    classOf 190 30 40 171 false = .ok ∧ classOf 190 30 40 220 false = .ok ∧ classOf 190 30 40 221 false = .wet ∧
      classOf 190 30 40 150 false = .ok ∧ classOf 190 30 40 149 false = .overdry ∧ classOf 190 30 40 600 true = .wet := by
  decide

/-- "Worked cases: board volume". -/
theorem test_board_volumes :
    boardVolume 50 150 4800 = 36000 ∧ boardVolume 19 89 2439 = 4124 ∧ boardVolume 19 100 1005 = 1910 ∧
      boardVolume 38 140 3050 = 16226 := by decide

/-- "Worked sequence: a charge turning wet": the 50th and the 52nd reading. -/
theorem test_a_charge_turns_wet :
    let c (m w : Nat) : Charge := { charge 204 .planing with stats := ⟨m, w, 0, 0, 0⟩ }
    turnsWet 50 100 (c 49 5) = false ∧ turnsWet 50 100 (c 50 5) = false ∧ turnsWet 50 100 (c 52 6) = true := by decide

/-- "Worked sequence: meter loss and recovery": frames 5, 8 and 12, with a loss run of 4. -/
theorem test_meter_loss_and_recovery :
    let h (n : Nat) : List Bool := [true, false, false, false, false] ++ List.replicate n true
    meterAfter 4 .ok false 4 (h 0) = .lost ∧ meterAfter 4 .lost true 0 (h 3) = .lost ∧ validCount (h 3) = 4 ∧
      meterAfter 4 .lost true 0 (h 7) = .ok := by decide

theorem test_open_run :
    let t := after (.openRun .K) (posted .K 0x40 [0, 204, 255, 20, 0] (base [charge 204 .released]))
    verdict .K t = some (.done [.num 1 1, .num 1 7, .num 1 50, .num 1 30, .num 1 20, .num 1 1]) ∧
      (t.charge 204).map Charge.state = some .planing := by decide

theorem test_add_and_advance_source :
    let s := (line planing).withCharges ⟨[charge 204 .planing, charge 207 .released], 341⟩
    let t := after (.addSource .K) (posted .K 0x41 [0, 207] s)
    t.tracker.run.map Run.sources = some [204, 207] ∧
      ((after (.advanceSource .K) (posted .K 0x42 [] t)).charge 204).map Charge.state = some .planed := by decide

theorem test_close_and_abort_run :
    let s := line { planing with queueB := [board 7 (some .ok) (some 171)] }
    ((after (.closeRun .K) (posted .K 0x43 [] s)).tracker.run.map Run.state) = some .draining ∧
      (after (.abortRun .K) (posted .K 0x44 [] s)).tracker.summary =
        some ⟨5, .aborted, { RunCounters.zero with lost := 1 }⟩ := by decide

theorem test_eye_edges :
    ((after .eyeEdge (line planing)).tracker.run.map fun n => n.queueA) = some [board 8 none none] ∧
      (after .eyeEdge (base [])).tracker.stray = 1 ∧
      (after .eyeFilteredFall (after .eyeEdge (base []))).tracker.eye = false := by decide

/-- R129: A5 00 98 04 is summed to 0x41; R111: the first worked case. -/
theorem test_meter_frame :
    let l : List MeterByte := [⟨0xA5, false⟩, ⟨0x00, false⟩, ⟨0x98, false⟩, ⟨0x04, false⟩]
    let s := line { planing with queueA := [board 7 none none] }
    let t := after (.meterFrame 0x41 false) { s with tracker := { s.tracker with receiver := l } }
    t.tracker.run.map Run.queueB = some [board 7 (some .ok) (some 171)] ∧ t.tracker.receiver = [] := by decide +kernel

theorem test_meter_bytes :
    (after (.meterByteReceived 0x12 false) (base [])).tracker.receiver = [] ∧
      (after (.meterByteReceived 0xA5 false) (base [])).tracker.receiver = [⟨0xA5, false⟩] := by decide

theorem test_meter_idle_is_a_void_frame :
    let s := line { planing with queueA := [board 7 none none] }
    let t := after .meterIdleTimeout { s with tracker := { s.tracker with receiver := [⟨0xA5, false⟩] } }
    t.tracker.run.map Run.queueB = some [board 7 (some .noReading) none] := by decide

/-- R134: a WET board opens a redry lot; a board of an unmapped key is rejected. -/
theorem test_board_grade :
    let s (b : Board) : State := posted .P 0x45 ([0, 7, 3] ++ beBytes 2 150 ++ beBytes 2 4800)
      (line { planing with queueB := [b], counters := { RunCounters.zero with boardsIn := 1 } })
    let t := after (.boardGrade .P false) (s (board 7 (some .wet) (some 236)))
    t.lots.lots.map (fun x => (x.number, x.pieces, x.volume)) = [(1, 1, 36000)] ∧
      verdict .P (after (.boardGrade .P false) (s (board 7 (some .ok) (some 171)))) =
        some (.done [.num 2 7, .num 2 204, .sym (.boardClass .ok), .num 1 3, .num 1 0, .num 1 4, .num 2 0, .num 1 6, .num 4 0,
          .flag false]) := by decide

theorem test_sort_map :
    let s := after (.putSortEntry .K) (posted .K 0x46 ([3] ++ beBytes 2 150 ++ [6, 4]) (base []))
    s.tracker.binOf 3 150 6 = some 4 ∧
      (after (.removeSortEntry .K) (posted .K 0x47 ([3] ++ beBytes 2 150 ++ [6]) s)).tracker.sortMap = [] ∧
      verdict .K (after (.clearSortMap .K) (posted .K 0x48 [] s)) = some (.done [.num 1 1]) := by decide

theorem test_run_status_clears_sticky_flags :
    ((after (.runStatus .Y) (posted .Y 0x49 [0] (line { planing with aUnderrun := true }))).tracker.run.map
      Run.aUnderrun) = some false := by decide

/-! ## Chapters 8 and 9: lots and packs -/

/-- "Worked sequence: a lot past four origins": lot 17 takes the WET board of 219, is closed and converted. -/
def lot17 : Lot :=
  { number := 17, species := 7, thickness := 50, state := .isOpen, pieces := 5, volume := 180000
    contributors := [⟨204, 2⟩, ⟨207, 1⟩, ⟨211, 1⟩, ⟨214, 1⟩], other := 0 }

theorem test_lot_past_four_origins :
    let x := lot17.join 219 36000
    x.contributors = lot17.contributors ∧ x.other = 1 ∧ x.pieces = 6 ∧ x.volume = 216000 := by decide

theorem test_close_lot :
    let s := { base [] with lots := ⟨[lot17.join 219 36000], 17⟩ }
    verdict .Y (after (.closeLot .Y) (posted .Y 0x50 [17] s)) =
      some (.done [.num 1 17, .num 1 7, .num 1 50, .num 2 6, .num 4 216000]) := by decide +kernel

theorem test_convert_lot :
    let cs := [204, 207, 211, 214, 219].map fun id => { charge id .planed with refs := 1 }
    let s := { base cs with lots := ⟨[lot17.join 219 36000], 17⟩, charges := ⟨cs, 221⟩ }
    let t := after (.convertLot .Y) (posted .Y 0x51 [17] s)
    (t.charge 222).map (fun c => (c.volume, c.flags.redry, c.origin)) =
        some (216000, true, some ⟨[204, 207, 211, 214], true⟩) ∧
      (t.charge 204).map Charge.refs = some 0 ∧ (t.charge 219).map Charge.refs = some 1 ∧ t.lots.lots = [] := by decide

theorem test_lot_query :
    verdict .K (after (.lotQuery .K) (posted .K 0x52 [0] { base [] with lots := ⟨[lot17], 20⟩ })) =
      some (.done [.num 1 1, .num 1 3, .num 1 20, .num 1 17, .sym (.lot .isOpen), .num 1 7, .num 1 50, .num 2 5]) := by decide

/-- "Worked sequence: a pack of five origins": boards c to e. -/
def pack311 : Pack :=
  { openedPack 311 9 ⟨7, 50, 150, 3, 6⟩ none with
    pieces := 2, volume := 72000, contributors := [⟨204, 1⟩, ⟨207, 1⟩], metered := 2, mcSum := 361, mcMin := some 176
    mcMax := some 185 }

def handed (id : Nat) (cls : BoardClass) (reading : Option Nat) : HandedBoard :=
  ⟨id, ⟨7, 50, 150, 3, 6⟩, 36000, reading, cls⟩

theorem test_pack_of_five_origins :
    let q := ((pack311.add (handed 211 .overdry (some 140))).add (handed 214 .noReading none)).add (handed 219 .ok (some 201))
    [q.pieces, q.volume, q.other, q.metered, q.mcSum, q.overdry, q.unmetered] = [5, 180000, 1, 4, 702, 1, 1] ∧
      q.mcMin = some 140 ∧ q.mcMax = some 201 ∧ q.closeAfter (.volume 150000) = some .target := by decide

theorem test_set_bin_target :
    verdict .K (after (.setBinTarget .K false) (posted .K 0x60 ([4, 1] ++ beBytes 4 1) (yard [pack 311 .isOpen] .cold))) =
      some (.done [.num 1 4, .num 1 1, .num 4 1, .num 1 1, .num 4 200, .num 2 311]) := by decide

theorem test_close_pack_queues_its_label :
    let t := after (.closePack .Y false) (posted .Y 0x61 [4] (yard [pack 311 .isOpen] .cold))
    t.label.state = .sending ∧ t.packs.closeList = [311] ∧
      (t.pack 311).map (fun q => (q.state, q.cause, q.short)) = some (.labelQueued, some .command, true) := by decide

theorem test_release_pack :
    let t := after (.releasePack .Y) (posted .Y 0x62 [1, 55] (yard [{ pack 311 .labelled with serial := some 7 }] .cold))
    t.packs.packs = [] ∧ (t.charge 204).map Charge.refs = some 0 := by decide

theorem test_pack_query :
    verdict .K (after (.packQuery .K) (posted .K 0x63 [1] (yard [pack 311 .isOpen] .cold))) =
      some (.done [.num 1 1, .num 2 311, .flag false, .num 2 311, .binState 4 .isOpen, .num 1 0]) := by decide

/-! ## Chapter 10: labels -/

/-- R175, R176: the volumes, means and dates the rules write out. -/
theorem test_label_texts :
    volumeText 180000 = [0x30, 0x2E, 0x31, 0x38, 0x30] ∧ volumeText 216500 = [0x30, 0x2E, 0x32, 0x31, 0x37] ∧
      volumeText 4294967295 = [0x34, 0x32, 0x39, 0x34, 0x2E, 0x39, 0x36, 0x37] ∧
      meanText 4 702 = [0x31, 0x37, 0x2E, 0x36] ∧ meanText 0 0 = [0x2D, 0x2D] ∧
      padded 6 4712 = [0x30, 0x30, 0x34, 0x37, 0x31, 0x32] ∧
      contributorText [⟨204, 1⟩, ⟨207, 1⟩] 1 = [0x32, 0x30, 0x34, 0x2C, 0x32, 0x30, 0x37, 0x2B] := by decide

/-- R176: targets 190 and 150 give "KD19"; a highest target of 195 gives "KD20". -/
theorem test_dried_to_text :
    let c (id target : Nat) : Charge := { charge id .planed with finalTarget := some target }
    let s (a b : Nat) : State := base [c 1 a, c 2 b]
    (s 190 150).driedText [⟨1, 1⟩, ⟨2, 1⟩] = [0x4B, 0x44, 0x31, 0x39] ∧
      (s 195 150).driedText [⟨1, 1⟩, ⟨2, 1⟩] = [0x4B, 0x44, 0x32, 0x30] := by decide

/-- A label engine sending a field. -/
def sending (k place : Nat) (text : Text) : LabelEngine :=
  { LabelEngine.cold with
    queue := [⟨.pack, 311, some 4712⟩], state := .sending, field := some k, lastSerial := 4712
    fields := List.replicate 16 text, place := place, bus := .cycle ⟨.address 1, 2, 4, 2⟩ }

/-- R179: after a field's last character comes the address of the next, and after field 16 the execute phase. -/
theorem test_field_ends :
    (after (.busCycleComplete false 0) (yard [pack 311 .labelQueued] (sending 1 2 [0x41]))).label.bus =
        .cycle ⟨.address 2, 2, 4, 2⟩ ∧
      (after (.busCycleComplete false 0) (yard [pack 311 .labelQueued] (sending 16 2 [0x41]))).label.field = some 0 := by decide

/-- R180: serial 999999 is 0x0F423F. -/
theorem test_verify_matches :
    let e := { sending 0 0 [] with
      queue := [⟨.pack, 311, some 999999⟩], state := .verifying, field := none, reads := [9, 0x0F, 0x42]
      bus := .cycle ⟨.read, 2, 4, 2⟩ }
    let t := after (.busCycleComplete false 0x3F) (yard [pack 311 .labelQueued] e)
    t.label.state = .idle ∧ (t.pack 311).map (fun q => (q.state, q.serial)) = some (.labelled, some 999999) := by decide

/-- "Worked sequence: pack 311 through a timeout": 2000 ms expire before field 9's address cycle. -/
theorem test_printer_timeout :
    let t := after .printerTimeout (yard [pack 311 .labelQueued] { sending 9 0 [] with bus := .waiting 2000 })
    t.label.state = .halted ∧ t.label.halt = some .timeout ∧ t.label.field = none ∧ t.label.lastSerial = 4712 := by decide

theorem test_lbsy_falls :
    (after .lbsyFall (yard [pack 311 .labelQueued] { sending 9 0 [] with bus := .waiting 2000 })).label.bus =
      .cycle ⟨.address 9, 2, 4, 2⟩ := by decide

/-- R177: LD is driven in every phase of an address cycle, LAS is high in its strobe phase alone. -/
theorem test_address_cycle_pins :
    let b := Bus.cycle ⟨.address 9, 2, 4, 2⟩
    b.pins .setup = ⟨some 9, false, true, true⟩ ∧ b.pins .strobe = ⟨some 9, true, true, true⟩ ∧
      b.pins .hold = ⟨some 9, false, true, true⟩ ∧ (Bus.cycle ⟨.read, 2, 4, 2⟩).pins .strobe = ⟨none, false, true, false⟩ := by
  decide

/-- The same sequence: RESUME PRINTER starts the job again with serial 4712. -/
theorem test_resume_printer :
    let e := { (sending 0 0 []).halted .timeout with queue := [⟨.pack, 311, some 4712⟩] }
    let t := after (.resumePrinter .K false) (posted .K 0x72 [] (yard [pack 311 .labelQueued] e))
    t.label.state = .sending ∧ t.label.field = some 1 ∧ t.label.lastSerial = 4712 := by decide

theorem test_halt_printer_while_idle :
    (after (.haltPrinter .K) (posted .K 0x71 [] (base []))).label.halt = some .command := by decide

theorem test_reprint :
    verdict .K (after (.reprint .K true) (posted .K 0x70 [1, 55] (yard [{ pack 311 .labelled with serial := some 7 }] .cold))) =
      some (.done [.num 2 311, .num 4 7, .num 1 1]) := by decide

theorem test_printer_status :
    verdict .P (after (.printerStatus .P) (posted .P 0x73 [] (base []))) =
      some (.done [.sym (.engine .idle), .absent 1, .flag false, .absent 1, .num 4 0, .absent 3, .num 1 0]) := by decide

/-! ## Chapters 11 and 12 -/

/-- A record for the ring. -/
def record (seq : Nat) : TraceRecord := ⟨seq, none, 1, 204, .chart, .drying, 1, 430, 405, none, none, none, none⟩

/-- "Worked sequence: following the ring", with three records in place of 2048. -/
theorem test_trace_read :
    let s := { base [] with trace := ⟨[record 10297, record 10298, record 10299], 10300, some 10302⟩ }
    verdict .Y (after (.traceRead .Y) (posted .Y 0x80 (beBytes 4 8250 ++ [8]) s)) = some (.refused (.noSuchSequence 10297)) ∧
      verdict .Y (after (.traceRead .Y) (posted .Y 0x80 (beBytes 4 10300 ++ [8]) s)) =
        some (.done [.num 4 10297, .num 4 10300, .num 1 0]) := by decide

/-- R191: a mark below the next sequence fires at once. -/
theorem test_set_trace_mark :
    let s := { base [] with trace := ⟨[record 1], 2, none⟩ }
    let t := after (.setTraceMark .Y) (posted .Y 0x81 (beBytes 4 1) s)
    t.trace.mark = none ∧ (t.port .Y).pending = 0x050000 := by decide

/-- R193: 2024-03-01 06:30 is 12,709,830; 2100-02-29 is bad at field 3. -/
theorem test_set_clock :
    (after (.setClock .Y) (posted .Y 0x82 ([7, 0xE8, 3, 1, 6, 30]) (base []))).clock = ⟨12709830, true⟩ ∧
      verdict .Y (after (.setClock .Y) (posted .Y 0x82 ([8, 0x34, 2, 29, 0, 0]) (base []))) = some (.refused (.badField 3)) := by
  decide

theorem test_mill_clock_minute :
    (after .millClockMinute { base [] with clock := ⟨12709830, true⟩ }).clock.minutes = 12709831 ∧
      (after .millClockMinute (base [])).clock = ⟨0, false⟩ := by decide

/-- R200: a charge in an active phase is HELD for RESTART, and the DONE answer stands in Y's buffer. -/
theorem test_restart :
    let t := after (.restart .Y false false) (posted .Y 0x92 [] (dryer (.active .drying) 2 (running 400 ⟨430, 25⟩)))
    (t.charge 204).map Charge.state = some (.held .drying .restart) ∧ (t.kiln 1).timer = true ∧
      (t.port .Y).buffer = some ⟨0x92, 0x0040, .done []⟩ ∧ t.trace.ring.map TraceRecord.kind = [.restart] := by decide

/-- R199: with the marker 1 a start is warm, with the marker 0 it is cold. -/
theorem test_warm_and_cold_start :
    let s := after .powerOnReset (dryer (.active .drying) 2 (running 400 ⟨430, 25⟩))
    ((after (.warmStart false false .completes) s).charge 204).map Charge.state = some (.held .drying .power) ∧
      (after (.warmStart false false .completes) s).retention.startKind = .warm ∧
      (after (.coldStart true false) { s with retention := { s.retention with marker := false } }).charges.entries = [] := by
  decide

/-- R198: the monitor clears the marker while main power is off and leaves it while it is on. -/
theorem test_backup_monitor :
    (after .backupMonitorTrip (after (.mainPowerFail false) State.reset)).retention.marker = false ∧
      (after .backupMonitorTrip State.reset).retention.marker = true := by decide

theorem test_power_fails_with_vbk_low :
    (after (.mainPowerFail true) State.reset).retention = ⟨false, .cold, .off⟩ := by decide

/-- R34: claims do not survive a start. -/
theorem test_warm_start_frees_claims :
    ((after (.warmStart false false .completes) (after .powerOnReset (base []))).claim .printer).owner = none := by decide


/-! ## Witnesses: the hypotheses of each statement, met together, clause by clause

Named after the statement. A statement without hypotheses, or of numbers alone, has none where it needs none. -/

/-- A command answers a next state, where the match says so. -/
theorem next_after {c : Instr} {s : State} (h : (match exec c s with | .next _ => true | _ => false) = true) :
    exec c s = .next (after c s) := by
  unfold after
  cases h2 : exec c s <;> simp_all

theorem holds_of {s : State} {k : KilnNo} {c : Charge} {x : Schedule} {n : Nat}
    (h : (s.kiln k).link = some c.id ∧ s.charge c.id = some c ∧ c.schedule = some n ∧ s.schedule n = some x) :
    Holds s k c x := ⟨h.1, h.2.1, n, h.2.2.1, h.2.2.2⟩

/-- `base` with another slot, or another port unit, at port K. -/
def slotted (x : Slot) : State := (base []).setPort .K { (base []).port .K with slot := x }
def unitK (u : PortUnit) : State := (base []).setPort .K u

def refusal : Answer := ⟨0x36, 0x0101, .refused .noSuch⟩

/-- The charge of `dryer`. -/
def dried (state : ChargeState) (n : Nat) : Charge :=
  { charge 204 state with kiln := some 1, schedule := some n, finalTarget := some 190 }

theorem witness_StepRunsTheFrontCommand :
    ((base []).withPending [.claim .K, .release .K]).pending = .claim .K :: [.release .K] := rfl

theorem witness_EveryCommandAnswersAndLeavesTheQueue : (base []).pending = [] := rfl

/-- A body of 248 bytes is accepted and one of 249 is BAD_LENGTH. -/
theorem witness_PostActsOnTheSlotState :
    let longest : List Byte := List.replicate 248 13
    let full := posted .K 0x01 [13] (base [])
    (Quiet (base []) .K ∧ (248 : Byte).toNat ≤ 248 ∧ (248 : Byte).toNat ≤ longest.length ∧
      ((base []).port .K).slot = .empty ∧ portCheck .K (rq 0x01 (longest.take 248)) = none) ∧
    ((0 : Byte).toNat ≤ ([] : List Byte).length ∧ portCheck .K (rq 0x03 []) = some .wrongPort) ∧
    (Quiet full .K ∧ (full.port .K).slot ≠ .empty) ∧ 248 < (249 : Byte).toNat := by decide +kernel

/-- R21: the request kind, the tag with its high byte first, the length byte, and as many body bytes; one further byte is
ignored. -/
theorem test_post_stores_kind_tag_and_body :
    ((after (.post .K (.rises [0x22, 0x12, 0x34, 3, 2, 0, 204, 9])) (base [])).port .K).slot =
      .posted ⟨0x22, 0x1234, [2, 0, 204]⟩ := by decide +kernel

/-- R3 and R8: the status byte is that of the fall of chip select, and a FETCH whose kind byte met an empty buffer sends the
empty marker and leaves the answer that arrives before its end. -/
theorem test_fetch_sends_what_it_copied :
    let s := unitK { (base []).port .K with slot := .taken (rq 0x36 [4]), inFlight := [(0, refusal)] }
    let t := after (.answerArrival .K 0) (after (.fetch .K (.bytes [])) (after (.fetch .K .falls) s))
    let u := after (.fetch .K (.rises [0])) t
    (u.port .K).sent = [s.statusByte .K, 0] ∧ (u.port .K).buffer = some refusal ∧ s.statusByte .K ≠ t.statusByte .K := by
  decide +kernel

/-- R20: a frame cut by PWRST# sends 0x00 from there on, does not act and counts no error. -/
theorem test_cut_frame_does_not_act :
    let s := after .powerOnReset (after (.note .K (.bytes [])) (base []))
    let t := after (.note .K (.rises [0x0F])) s
    (t.port .K).notes = 0 ∧ (t.port .K).errors = 0 ∧ (t.port .K).last = .blank ∧
      (t.port .K).sent = [(base []).statusByte .K, 0] := by decide +kernel

/-- Kinds below, between and above the codes; SEIZE at K, KILN REPORT at P and BOARD GRADE at Y; CLAIM; LOAD of kilns 1 and 12,
of kilns 0 and 13, and without a field. -/
theorem witness_PostChecksKindThenPortThenKiln :
    let known (code : Nat) : Prop := (0x01 ≤ code ∧ code ≤ 0x03) ∨ (0x10 ≤ code ∧ code ≤ 0x17) ∨ (0x20 ≤ code ∧ code ≤ 0x26) ∨
      (0x30 ≤ code ∧ code ≤ 0x36) ∨ (0x40 ≤ code ∧ code ≤ 0x49) ∨ (0x50 ≤ code ∧ code ≤ 0x52) ∨
      (0x60 ≤ code ∧ code ≤ 0x63) ∨ (0x70 ≤ code ∧ code ≤ 0x73) ∨ (0x80 ≤ code ∧ code ≤ 0x82) ∨
      (0x90 ≤ code ∧ code ≤ 0x92)
    let yard : List Nat := [0x03, 0x92, 0x82, 0x62, 0x24, 0x51, 0x50, 0x61, 0x81]
    let kilns : List Nat := [0x22, 0x23, 0x30, 0x31, 0x32, 0x33, 0x34, 0x35, 0x36]
    (∀ kind ∈ ([0x00, 0x04, 0x18, 0x27, 0x37, 0x4A, 0x64, 0x83, 0x93, 0xFF] : List Byte), ¬known (rq kind []).kind.toNat) ∧
    ((known 0x03 ∧ ¬(0x03 ≠ 0x45 ∧ 0x03 ∉ yard)) ∧ (known 0x30 ∧ 0x30 ∈ [0x30, 0x26]) ∧ (known 0x45 ∧ ¬0x45 ≠ 0x45)) ∧
    (known (rq 0x01 []).kind.toNat ∧ 0x01 ≠ 0x45 ∧ 0x01 ∉ yard ∧ (0x01 : Nat) ∉ kilns) ∧
    (known (rq 0x22 [12]).kind.toNat ∧ 0x22 ≠ 0x45 ∧ 0x22 ∉ yard ∧ 0x22 ∈ kilns ∧ (rq 0x22 [12]).body = 12 :: [] ∧
      1 ≤ (12 : Byte).toNat ∧ (12 : Byte).toNat ≤ 12 ∧ 1 ≤ (1 : Byte).toNat ∧ (1 : Byte).toNat ≤ 12) ∧
    ((rq 0x22 []).body = [] ∧ (rq 0x22 [0]).body = 0 :: [] ∧ ¬(1 ≤ (0 : Byte).toNat ∧ (0 : Byte).toNat ≤ 12) ∧
      (rq 0x22 [13]).body = 13 :: [] ∧ ¬(1 ≤ (13 : Byte).toNat ∧ (13 : Byte).toNat ≤ 12)) :=
  ⟨by decide +kernel, ⟨by decide +kernel, by decide +kernel, by decide +kernel⟩, by decide +kernel, by decide +kernel,
    by decide +kernel⟩

/-- Each of the four slot states stands at a quiet port. -/
theorem witness_WithdrawActsOnTheSlotState (x : Slot) :
    Quiet (slotted x) .K ∧ ((slotted x).port .K).slot = x := ⟨⟨rfl, rfl⟩, rfl⟩

/-- The reading frames are just long enough; the buffer full, full with an answer staged, and empty. -/
theorem witness_FetchAndPeekSendWhatTheyRead :
    let s := unitK { (base []).port .K with buffer := some refusal }
    let t := unitK { (base []).port .K with buffer := some refusal, slot := .doneWaiting refusal }
    (Quiet s .K ∧ (s.port .K).buffer = some refusal ∧ 1 + refusal.bytes.length ≤ (List.replicate 6 (0 : Byte)).length ∧
      (s.port .K).slot.hasStaged = false) ∧
    (Quiet t .K ∧ (t.port .K).buffer = some refusal ∧ (t.port .K).slot = .doneWaiting refusal) ∧
    (Quiet (base []) .K ∧ ((base []).port .K).buffer = none ∧ 1 ≤ ([0] : List Byte).length) ∧
    15 ≤ (List.replicate 15 (0 : Byte)).length ∧ 0 < 4 ∧ 3 < 4 := by decide +kernel

theorem witness_NoteSetsFlagsAndTellsTheOthers :
    let s := unitK { (base []).port .K with notes := 5 }
    Quiet s .K ∧ (0x15 : Byte).setWidth 4 = (s.port .K).notes ∧ (0xFF : Byte).setWidth 4 ≠ (s.port .K).notes := by
  decide +kernel

/-- RESTARTED is the one cause pending, and 0xFFFFFF carries every cause. -/
theorem witness_AckAndMaskWriteTheCauseSets :
    Quiet (base []) .K ∧ ((base []).port .K).pending ≠ 0 ∧
      ((base []).port .K).pending &&& ~~~((0xFFFFFF : BitVec 24) &&& 0x07FFFF) = 0 := by decide +kernel

theorem witness_PortResetResetsItsOwnPort :
    let s := { unitK { (base []).port .K with notes := 5 } with claims := { ownedBy .K with printer := ⟨some .Y, true⟩ } }
    Quiet s .K ∧ (s.port .K).notes ≠ 0 ∧ (s.claim .planer).owner = some .K ∧ (s.claim .planer).seized = false ∧
      (s.claim .printer).seized = true := by decide +kernel

/-- Error counts of 254 and 255, each frame one byte short, a FETCH of the kind byte alone from an empty buffer, a PEEK as a
transfer, and the bytes at the ends of the kind codes. -/
theorem witness_ShortAndUnknownFramesDoNotAct :
    let s (n : Nat) := unitK { (base []).port .K with errors := n, buffer := some refusal }
    (Quiet (s 254) .K ∧ (s 254 |>.port .K).errors < 255 ∧ Quiet (s 255) .K ∧ ¬(s 255 |>.port .K).errors < 255 ∧
      ([1, 0, 0x40] : List Byte).length < 4 ∧
      (([1, 0, 0x40, 2, 7] : List Byte)[3]? = some 2 ∧ (2 : Byte).toNat ≤ 248 ∧
        ([1, 0, 0x40, 2, 7] : List Byte).length < 4 + (2 : Byte).toNat) ∧
      ([0, 0] : List Byte).length < 3 ∧ (List.replicate 14 (0 : Byte)).length < 15 ∧
      (((s 254).port .K).buffer = some refusal ∧ (List.replicate 5 (0 : Byte)).length < 1 + refusal.bytes.length) ∧
      (Quiet (base []) .K ∧ ((base []).port .K).buffer = none)) ∧
    isTransfer .K (.peek .K) ∧ isTransfer .K (.unknownTransfer .K 0xC8) ∧
    (∀ kind ∈ ([0x00, 0xC0, 0xC8, 0xCE, 0xD0, 0xFF] : List Byte), kindIsUnknown kind = true) ∧
    ∀ kind ∈ ([0xC1, 0xC7, 0xCF] : List Byte), kindIsUnknown kind = false :=
  ⟨by decide +kernel, .inr (.inr (.inr (.inl rfl))), .inr (.inr (.inr (.inr (.inr (.inr (.inr (.inr ⟨0xC8, rfl⟩))))))),
    by decide +kernel, by decide +kernel⟩

/-- An answer with ticket 7 behind an older one, into an empty and a full buffer, and one that meets ticket 8. -/
theorem witness_AnswerArrivesByTicketAndBuffer :
    let u : PortUnit := { (base []).port .K with
      slot := .taken (rq 0x36 [4]), ticket := 7, inFlight := [(6, refusal), (7, refusal)] }
    let s := unitK u
    (s.retention.phase = .running ∧ (s.port .K).inFlight[1]? = some (7, refusal) ∧
      (s.port .K).slot = .taken (rq 0x36 [4]) ∧ 7 = (s.port .K).ticket ∧ (s.port .K).buffer = none) ∧
    ((unitK { u with buffer := some refusal }).port .K).buffer = some refusal ∧
    ((s.port .K).inFlight[0]? = some (6, refusal) ∧ (6 : BitVec 32) ≠ (s.port .K).ticket) := by decide +kernel

/-- A POST in pieces. A frame that opens, one that is open, one that is cut, one in each power phase; and a FETCH that copied
an empty buffer into which an answer has come since, of no further byte and of one. -/
theorem witness_FramePiecesJoin :
    let opened : OpenFrame := ⟨0, some ⟨none, []⟩, [], [0], false⟩
    let s (f : OpenFrame) (ph : PowerPhase) : State :=
      { unitK { (base []).port .K with buffer := some refusal, frame := some f } with retention := ⟨true, .cold, ph⟩ }
    (isTransfer .K (.post .K) ∧
      exec (.post .K (.bytes [0x01, 0])) (base []) = .next (after (.post .K (.bytes [0x01, 0])) (base []))) ∧
    (Sends .K (.post .K) (fun _ => []) ∧ Sends .K (.peek .K) FrameCopy.status ∧
      Sends .K (.unknownTransfer .K 0xC8) (fun _ => []) ∧
      Sends .K (.fetch .K) (fun y => match y.buffer with | some a => BitVec.ofNat 8 a.bytes.length :: a.bytes | none => [0])) ∧
    ((base []).retention.phase ≠ .off ∧ ((base []).port .K).frame = none ∧
      ((s { opened with cut := true } .running).openFrame .K).cut = true ∧
      ((s { opened with cut := true } .starting).openFrame .K).cut = true ∧ (s opened .starting).retention.phase ≠ .off) ∧
    ((s opened .running).retention.phase = .running ∧ ((s opened .running).openFrame .K).cut = false ∧
      ((s opened .running).copyFor .K opened).buffer = none ∧ ((s opened .running).port .K).buffer ≠ none ∧
      (exec (.peek .K (.rises (opened.received ++ [0]))) ((s opened .running).setPort .K { (s opened .running).port .K with frame := none })
        = .next (after (.peek .K (.rises (opened.received ++ [0])))
          ((s opened .running).setPort .K { (s opened .running).port .K with frame := none }))) ∧
      opened.received ++ [] = [] ∧ opened.received ++ [0] ≠ []) ∧
    (s opened .off).retention.phase = .off := by
  refine ⟨⟨.inl rfl, rfl⟩, ⟨.inr (.inr ⟨.inl rfl, rfl⟩), .inr (.inl ⟨rfl, rfl⟩),
    .inr (.inr ⟨.inr (.inr (.inr (.inr (.inr (.inr ⟨0xC8, by decide, rfl⟩))))), rfl⟩), .inl ⟨rfl, rfl⟩⟩, by decide +kernel,
    ⟨rfl, rfl, rfl, by decide, rfl, rfl, by decide⟩, rfl⟩

/-- SEIZE by Y while K owns the resource: another port's command, and a cause at K. -/
theorem witness_PortUnitsAreSeparate :
    let s := posted .Y 0x03 [13] (base [])
    exec (.seize .Y) s = .next (after (.seize .Y) s) ∧ resetsPorts (.seize .Y) = false ∧ portOf (.seize .Y) ≠ some .K ∧
      ((after (.seize .Y) s).port .K).pending ≠ (s.port .K).pending :=
  ⟨rfl, rfl, by decide, by decide +kernel⟩

theorem witness_PendingCausesStayUntilAcked :
    (([Cause.answerReady, .claimLost] : List Cause)[0]? = some .answerReady ∧
      (List.replicate 18 Cause.noteChanged ++ [.restarted])[18]? = some .restarted) ∧
    let s := posted .Y 0x03 [13] (base [])
    exec (.seize .Y) s = .next (after (.seize .Y) s) ∧ resetsPorts (.seize .Y) = false ∧
      (∀ f, Instr.seize .Y ≠ .ack .K f) ∧ (∀ f, Instr.seize .Y ≠ .portReset .K f) ∧ (s.port .K).pending ≠ 0 :=
  ⟨by decide, rfl, rfl, nofun, nofun, by decide⟩

/-- Port K owns every claim of `base`. -/
theorem base_owns (kind : Byte) (b : List Byte) (cs : List Charge) (res : Resource) : Owns (posted .K kind b (base cs)) .K res := by
  change (Claims.get (ownedBy .K) res).owner = some .K
  cases res
  case kiln k => revert k; decide
  all_goals rfl

/-- A schedule whose second threshold rises, a label of nine characters, a volume of 0, LOAD of kiln 13 and under schedule 17, a
green MC of 2001, and 30 February; a RELEASE by P of what K owns; and a port with an EMPTY slot, or with another kind POSTED. -/
theorem witness_TakesThatDoNotAct :
    let rising := { moist with steps := .moisture [⟨430, 25, 600, 0, 5⟩, ⟨460, 55, 601, 1, 0⟩] }
    let bad (code : Byte) (b : List Byte) (i : Nat) : Prop :=
      Offers (posted .K code b (base [])) .K code (rq code b) ∧ firstBad (layoutOf code) (b.length + 1) [] b = some i
    let s := posted .P 0x02 [13] (base [])
    (∀ kind b res, Owns (posted .K kind b (base [])) .K res) ∧
    (bad 0x13 (rising.fields.flatMap Field.bytes) 24 ∧ bad 0x10 ([7, 9] ++ List.replicate 9 0x41 ++ [4, 0, 0, 0]) 2 ∧
      bad 0x20 [7, 50, 0, 0, 0, 0] 3 ∧ bad 0x22 [13, 0, 204, 3] 1 ∧ bad 0x22 [12, 0, 204, 17] 3 ∧ bad 0x22 [12, 0] 2 ∧
      bad 0x21 ([0, 204, 2, 0, 100, 0, 50, 0, 100] ++ beBytes 2 2001) 6 ∧ bad 0x82 [8, 52, 2, 30, 0, 0] 3 ∧
      bad 0x90 [18, 1, 0x1F] 2 ∧ bad 0x01 [] 1) ∧
    (takenBy (.putSchedule .K) = some (.K, 0x13) ∧ gatedBy (.putSchedule .K) = some .library ∧
      takenBy (.load .K) = some (.K, 0x22) ∧ gatedByKiln (.load .K) = true) ∧
    (takenBy (.release .P) = some (.P, 0x02) ∧ Offers s .P 0x02 (rq 0x02 [13]) ∧
      exec (.release .P) s = .next (after (.release .P) s) ∧
      ((after (.release .P) s).port .P).inFlight.getLast? = some (0, ⟨0x02, 0x0040, .refused .notOwner⟩)) ∧
    (∀ r, ¬Offers (base []) .K 0x01 r) ∧ ∀ r, ¬Offers s .P 0x01 r := by
  refine ⟨fun kind b res => base_owns kind b [] res, by decide +kernel, by decide, ⟨rfl, by decide +kernel, rfl, by decide +kernel⟩,
    ?_, ?_⟩
  · rintro r ⟨-, h, -⟩
    cases h
  · rintro r ⟨-, h, h2⟩
    cases h
    revert h2
    decide

/-- Bodies that are bad in every field: OPEN RUN with none, START with a trailing byte. -/
theorem witness_GatedTakesNeedTheClaim :
    let s := posted .P 0x40 [] (base [])
    let t := posted .Y 0x31 [12, 9] (base [])
    (takenBy (.openRun .P) = some (.P, 0x40) ∧ gatedBy (.openRun .P) = some .planer ∧ Offers s .P 0x40 (rq 0x40 []) ∧
      ¬Owns s .P .planer) ∧
    (takenBy (.start .Y) = some (.Y, 0x31) ∧ gatedByKiln (.start .Y) = true ∧ Offers t .Y 0x31 (rq 0x31 [12, 9]) ∧
      (rq 0x31 [12, 9]).body = 12 :: [9] ∧ (12 : Byte).toNat = (11 : KilnNo).val + 1 ∧ ¬Owns t .Y (.kiln 11)) := by
  decide +kernel

/-- The printer free, held by K, held by P for K, and held by Y. -/
theorem witness_ClaimRequestsActOnTheOwner :
    let s (o : Option Port) (kind : Byte) : State :=
      posted .Y kind [15] { base [] with claims := { ownedBy .K with printer := ⟨o, false⟩ } }
    readResource (rq 0x01 [15]).body = .ok .printer ∧
    (∀ o kind, kind = 0x01 ∨ kind = 0x02 ∨ kind = 0x03 →
      Offers (s o kind) .Y kind (rq kind [15]) ∧ ((s o kind).claim .printer).owner = o) ∧
    (Port.K ≠ Port.Y ∧ some Port.K ≠ some Port.Y) := by
  refine ⟨by decide +kernel, ?_, by decide⟩
  rintro o kind (rfl | rfl | rfl) <;> exact ⟨⟨rfl, rfl, rfl⟩, rfl⟩

/-- Species 7 present, with no charge and with one, and species 32 absent. -/
theorem witness_SpeciesRequestsComplete :
    let body : List Byte := [7, 3, 0x4F, 0x41, 0x4B] ++ beBytes 2 1126 ++ [0xFA, 6]
    let s (kind : Byte) (b : List Byte) (cs : List Charge) := posted .K kind b (base cs)
    (Offers (s 0x10 body []) .K 0x10 (rq 0x10 body) ∧ Owns (s 0x10 body []) .K .library ∧
      readSpecies (rq 0x10 body).body = .ok oak) ∧
    (Offers (s 0x11 [7] []) .K 0x11 (rq 0x11 [7]) ∧ Owns (s 0x11 [7] []) .K .library ∧
      readOne 1 1 32 (rq 0x11 [7]).body = .ok 7 ∧ (s 0x11 [7] []).species 7 = some oak ∧
      ∀ c ∈ (s 0x11 [7] []).charges.entries, c.species ≠ 7) ∧
    (Offers (s 0x11 [7] [charge 204 .staged]) .K 0x11 (rq 0x11 [7]) ∧
      ∃ c ∈ (s 0x11 [7] [charge 204 .staged]).charges.entries, c.species = 7) ∧
    (Offers (s 0x12 [7] []) .K 0x12 (rq 0x12 [7]) ∧ (s 0x12 [7] []).species 7 = some oak) ∧
    (Offers (s 0x11 [32] []) .K 0x11 (rq 0x11 [32]) ∧ Offers (s 0x12 [32] []) .K 0x12 (rq 0x12 [32]) ∧
      readOne 1 1 32 (rq 0x12 [32]).body = .ok 32 ∧ (s 0x12 [32] []).species 32 = none) := by decide +kernel

/-- The highest schedule number, not in use; number 16 in use, where no count stands at 0; and number 1 absent. -/
theorem witness_ScheduleRequestsComplete :
    let x := { timed with number := 16 }
    let body := x.fields.flatMap Field.bytes
    let s (kind : Byte) (b : List Byte) (used : Nat) : State := posted .K kind b { base [] with
      library := { library with schedules := [x], inUse := .replicate 16 used } }
    (Offers (s 0x13 body 0) .K 0x13 (rq 0x13 body) ∧ Owns (s 0x13 body 0) .K .library ∧
      readSchedule (rq 0x13 body).body = .ok x ∧ (s 0x13 body 0).inUse x.number = 0 ∧ (s 0x13 body 1).inUse x.number ≠ 0) ∧
    (Offers (s 0x14 [16] 0) .K 0x14 (rq 0x14 [16]) ∧ Owns (s 0x14 [16] 0) .K .library ∧
      readOne 1 1 16 (rq 0x14 [16]).body = .ok 16 ∧ (s 0x14 [16] 0).schedule 16 = some x ∧
      (s 0x14 [16] 0).inUse 16 = 0 ∧ (s 0x14 [16] 32).inUse 16 ≠ 0) ∧
    (Offers (s 0x15 [16] 0) .K 0x15 (rq 0x15 [16]) ∧ (s 0x15 [16] 0).schedule 16 = some x) ∧
    (Offers (s 0x14 [1] 0) .K 0x14 (rq 0x14 [1]) ∧ Offers (s 0x15 [1] 0) .K 0x15 (rq 0x15 [1]) ∧
      readOne 1 1 16 (rq 0x15 [1]).body = .ok 1 ∧ (s 0x15 [1] 0).schedule 1 = none) := by decide +kernel

/-- Grade 8, parameters 17 and 18, and the three forms of PARAMETER QUERY. -/
theorem witness_TextBandAndParameterRequestsComplete :
    let s (kind : Byte) (b : List Byte) := posted .K kind b (base [])
    let bands := 8 :: (defaultBands.cells.flatMap fun b => beBytes 2 b.bound ++ (Field.text b.text).bytes)
    (1 ≤ 8 ∧ 8 ≤ 8 ∧ (List.replicate 6 (0x20 : Byte)).length ≤ 6 ∧ (List.replicate 16 (0x7E : Byte)).length ≤ 16 ∧
      (List.replicate 6 (0x20 : Byte)).all printable = true ∧ (List.replicate 16 (0x7E : Byte)).all printable = true) ∧
    ((defaultBands.cells.Pairwise fun a b => a.bound < b.bound) ∧
      ∀ b ∈ defaultBands.cells, 500 ≤ b.bound ∧ b.bound ≤ 7500 ∧ 1 ≤ b.text.length ∧ b.text.length ≤ 4 ∧
        b.text.all printable = true) ∧
    ((1, 10, 100) ∈ ([(1, 10, 100), (17, 1, 15)] : List (Nat × Nat × Nat)) ∧ 10 ≤ 100 ∧ 1 ≤ 15) ∧
    (Offers (s 0x16 [8, 1, 0x41]) .K 0x16 (rq 0x16 [8, 1, 0x41]) ∧ Owns (s 0x16 [8, 1, 0x41]) .K .library ∧
      readGradeText (rq 0x16 [8, 1, 0x41]).body = .ok (8, [0x41]) ∧ readGradeText (rq 0x16 [8, 0]).body = .ok (8, [])) ∧
    (Offers (s 0x17 bands) .K 0x17 (rq 0x17 bands) ∧ readLengthBands (rq 0x17 bands).body = .ok defaultBands.cells ∧
      defaultBands.cells.length = 8 ∧ readLengthBands (rq 0x17 [0]).body = .ok []) ∧
    (Offers (s 0x90 [17, 0, 15]) .K 0x90 (rq 0x90 [17, 0, 15]) ∧
      readParameter (rq 0x90 [17, 0, 15]).body = .ok (17, .number 15) ∧
      readParameter (rq 0x90 [18, 1, 0x41]).body = .ok (18, .header [0x41])) ∧
    (Offers (s 0x91 [18]) .K 0x91 (rq 0x91 [18]) ∧ readOne 1 0 18 (rq 0x91 [0]).body = .ok 0 ∧
      readOne 1 0 18 (rq 0x91 [17]).body = .ok 17 ∧ readOne 1 0 18 (rq 0x91 [18]).body = .ok 18) :=
  ⟨by decide +kernel, ⟨by decide +kernel, by decide +kernel⟩, by decide +kernel, by decide +kernel, by decide +kernel,
    by decide +kernel, by decide +kernel⟩

/-- Schedules at the least and at the greatest values of every field, with equal thresholds. -/
def least : Schedule := ⟨1, 40, 0, some ⟨200, 0, 0, 1⟩, some ⟨200, 0, 1⟩, 0, 1, .time [⟨200, 0, 1⟩]⟩
def greatest : Schedule :=
  ⟨16, 300, 200, some ⟨1100, 400, 100, 9999⟩, some ⟨1100, 400, 9999⟩, 800, 9999,
    .moisture (List.replicate 24 ⟨1100, 400, 2000, 9999, 9999⟩)⟩

theorem witness_PutScheduleReadsBackWhatQueryReports :
    (1 ≤ least.number ∧ least.number ≤ 16 ∧ 40 ≤ least.finalTarget ∧ least.finalTarget ≤ 300 ∧ least.ramp ≤ 200 ∧
      least.equalize = some ⟨200, 0, 0, 1⟩ ∧ least.conditioning = some ⟨200, 0, 1⟩ ∧ least.coolEnd ≤ 800 ∧
      1 ≤ least.coolMax ∧ least.coolMax ≤ 9999 ∧ 1 ≤ least.steps.count ∧ least.steps.count ≤ 24 ∧
      ∀ y ∈ [(⟨200, 0, 1⟩ : TimeStep)], 200 ≤ y.dry ∧ y.dry ≤ 1100 ∧ y.depression ≤ 400 ∧ 1 ≤ y.duration ∧ y.duration ≤ 9999) ∧
    (1 ≤ greatest.number ∧ greatest.number ≤ 16 ∧ 40 ≤ greatest.finalTarget ∧ greatest.finalTarget ≤ 300 ∧
      greatest.ramp ≤ 200 ∧ greatest.equalize = some ⟨1100, 400, 100, 9999⟩ ∧
      greatest.conditioning = some ⟨1100, 400, 9999⟩ ∧ greatest.coolEnd ≤ 800 ∧ 1 ≤ greatest.coolMax ∧
      greatest.coolMax ≤ 9999 ∧ 1 ≤ greatest.steps.count ∧ greatest.steps.count ≤ 24 ∧
      (∀ y ∈ List.replicate 24 (⟨1100, 400, 2000, 9999, 9999⟩ : MoistureStep),
        200 ≤ y.dry ∧ y.dry ≤ 1100 ∧ y.depression ≤ 400 ∧ y.threshold ≤ 2000 ∧ y.minOn ≤ 9999 ∧ y.maxOn ≤ 9999) ∧
      (List.replicate 24 (⟨1100, 400, 2000, 9999, 9999⟩ : MoistureStep)).Pairwise
        fun a b => b.threshold ≤ a.threshold) := by decide +kernel

/-- Each field at an end of its range, the defaults of OPEN RUN, the last minute of a leap day, and numbers of one and four
bytes. -/
theorem witness_RequestBodiesReadBack :
    ((1 ≤ 65535 ∧ 65535 ≤ 65535) ∧ ((100 ≤ 100 ∨ 100 = 255) ∧ (255 ≤ 100 ∨ 255 = 255)) ∧
      ((150 ≤ 150 ∨ 150 = 255) ∧ (255 ≤ 150 ∨ 255 = 255)) ∧ 2 ≤ 2 ∧ (1 ≤ 8 ∧ 8 ≤ 8 ∧ 50 ≤ 400 ∧ 400 ≤ 400 ∧ 20 ≤ 20)) ∧
    (0 ≤ 255 ∧ 255 ≤ 255 ∧ 255 < 256 ^ 1 ∧ 4294967295 < 256 ^ 4) ∧
    (1 ≤ 32 ∧ 32 ≤ 32 ∧ 1 ≤ (List.replicate 8 (0x7E : Byte)).length ∧ (List.replicate 8 (0x7E : Byte)).length ≤ 8 ∧
      (List.replicate 8 (0x7E : Byte)).all printable = true ∧ 512 ≤ 2048 ∧ -100 ≤ (100 : Int) ∧ (-100 : Int) ≤ 100) ∧
    (1 ≤ 2000000000 ∧ 10 ≤ 150) ∧ (1 ≤ 65535 ∧ 1 ≤ 16) ∧ (500 ≤ 65535 ∧ 50 ≤ 400) ∧ (1 ≤ 2000 ∧ 1 ≤ 10000000) ∧
    (2000 ≤ 2196 ∧ 2196 ≤ 2199 ∧ 29 ≤ monthDays 2196 2 ∧ 23 ≤ 23 ∧ 59 ≤ 59) := by decide +kernel

theorem witness_NewIdentifiersAreFree :
    (List.range 254).length < 255 ∧ ([255, 1] : List Nat).length < 255 := by decide +kernel

/-- A table of n charges of oak, STAGED, in key order. -/
def staged (n : Nat) : List Charge := (List.range n).map fun i => charge (i + 1) .staged

/-- 31 and 32 charges, and species 8, which is absent. -/
theorem witness_DefineChargeCreatesAStagedCharge :
    let body (sp : Byte) : List Byte := [sp, 50] ++ beBytes 4 2000000000
    let s (sp : Byte) (n : Nat) := posted .K 0x20 (body sp) (base (staged n))
    (Offers (s 7 31) .K 0x20 (rq 0x20 (body 7)) ∧ readDefineCharge (rq 0x20 (body 7)).body = .ok (7, 50, 2000000000) ∧
      (s 7 31).species 7 = some oak ∧ (s 7 31).charges.entries.length < 32 ∧ Offers (s 7 32) .K 0x20 (rq 0x20 (body 7)) ∧
      32 ≤ (s 7 32).charges.entries.length) ∧
    (Offers (s 8 32) .K 0x20 (rq 0x20 (body 8)) ∧ readDefineCharge (rq 0x20 (body 8)).body = .ok (8, 50, 2000000000) ∧
      (s 8 32).species 8 = none) := by decide +kernel

theorem witness_OvenDryWeightIsRoundedToNearest :
    100 ≤ 100 ∧ 100 ≤ 50000 ∧ 50 ≤ 2000 ∧ 2000 ≤ 2000 ∧ 100 ≤ 50000 ∧ 50000 ≤ 50000 ∧ 50 ≤ 50 ∧ 50 ≤ 2000 := by decide

theorem witness_SetSamplesReplacesTheList :
    (1 ≤ 65535 ∧ 2 ≤ (List.replicate 8 (100, 2000)).length ∧ (List.replicate 8 (100, 2000)).length ≤ 8 ∧
      ∀ g ∈ ([(100, 50), (50000, 2000)] : List (Nat × Nat)), 100 ≤ g.1 ∧ g.1 ≤ 50000 ∧ 50 ≤ g.2 ∧ g.2 ≤ 2000) ∧
    let body : List Byte := beBytes 2 204 ++ [2] ++ beBytes 2 100 ++ beBytes 2 50 ++ beBytes 2 50000 ++ beBytes 2 2000
    let s (c : Charge) := posted .K 0x21 body (base [c])
    Offers (s (charge 204 .staged)) .K 0x21 (rq 0x21 body) ∧
      readSetSamples (rq 0x21 body).body = .ok (204, [(100, 50), (50000, 2000)]) ∧
      (s (charge 204 .staged)).charge 204 = some (charge 204 .staged) ∧
      (s (charge 204 .loaded)).charge 204 = some (charge 204 .loaded) ∧
      (s (charge 204 .dried)).charge 204 = some (charge 204 .dried) ∧
      (charge 204 .dried).state ≠ .staged ∧ (charge 204 .dried).state ≠ .loaded ∧
      (s (charge 203 .staged)).charge 204 = none := by decide +kernel

/-- One and two VALID samples, given out of order. -/
theorem witness_ControllingMCIsTheMeanOfTheWetterHalf :
    let x (n : Nat) (st : SampleStatus) : Sample := ⟨n, 1000, 500, 667, st⟩
    let one := [x 1 .noReport, x 2 (.valid 800 200)]
    let two := [x 1 (.valid 800 200), x 2 (.suspect 600 0), x 3 (.valid 900 2000)]
    ((one.filterMap Sample.validMC).Perm [200] ∧ ([200] : List Nat).Pairwise (fun a b => b ≤ a) ∧ ([200] : List Nat).length < 2) ∧
    ((two.filterMap Sample.validMC).Perm [2000, 200] ∧ ([2000, 200] : List Nat).Pairwise (fun a b => b ≤ a) ∧
      2 ≤ ([2000, 200] : List Nat).length ∧ ∀ m ∈ ([2000, 200] : List Nat), m ≤ 2000) := by decide +kernel

/-- As many weights as samples, one of them 0, and one weight more; a charge without samples, a RELEASED one, and none. -/
theorem witness_SampleWeightsApplyInOrder :
    (1 ≤ 65535 ∧ 1 ≤ ([50000] : List Nat).length ∧ (List.replicate 8 50000).length ≤ 8 ∧ ∀ w ∈ ([0, 50000] : List Nat), w ≤ 50000) ∧
    let body : List Byte := beBytes 2 204 ++ [2] ++ beBytes 2 0 ++ beBytes 2 50000
    let two : List Sample := [⟨1, 1000, 500, 667, .noReport⟩, ⟨2, 1000, 500, 667, .noReport⟩]
    let c (l : List Sample) (st : ChargeState) : Charge := { charge 204 st with samples := l }
    let s (l : List Sample) (st : ChargeState) := posted .K 0x26 body (base [c l st])
    (Offers (s two .staged) .K 0x26 (rq 0x26 body) ∧ readSampleWeights (rq 0x26 body).body = .ok (204, [0, 50000]) ∧
      (s two .staged).charge 204 = some (c two .staged) ∧ (c two .staged).state ≠ .released ∧ (c two .staged).state ≠ .planing ∧
      (c two .staged).state ≠ .planed ∧ (c two .staged).samples ≠ [] ∧
      ([0, 50000] : List Nat).length ≤ (c two .staged).samples.length) ∧
    ((s (two.take 1) .dried).charge 204 = some (c (two.take 1) .dried) ∧ (c (two.take 1) .dried).samples ≠ [] ∧
      (c (two.take 1) .dried).samples.length < ([0, 50000] : List Nat).length) ∧
    ((c [] .staged).samples = [] ∧ (c two .released).state = .released ∧
      (s two .released).charge 204 = some (c two .released)) ∧
    (posted .K 0x26 body (base [])).charge 204 = none := by decide +kernel

/-- Under a TIME schedule without samples, and under a MOISTURE schedule with and without them; an occupied kiln, no charge, a
charge LOADED already, and no schedule. -/
theorem witness_LoadTiesTheChargeToTheKiln :
    let body (n : Byte) : List Byte := [12, 0, 204, n]
    let wet : Charge := { charge 204 .staged with samples := [⟨1, 1000, 500, 667, .noReport⟩] }
    let s (n : Byte) (c : Charge) := posted .K 0x22 (body n) (base [c])
    (Offers (s 2 (charge 204 .staged)) .K 0x22 (rq 0x22 (body 2)) ∧ readLoad (rq 0x22 (body 2)).body = .ok (11, 204, 2) ∧
      Owns (s 2 (charge 204 .staged)) .K (.kiln 11) ∧ ((s 2 (charge 204 .staged)).kiln 11).link = none ∧
      (s 2 (charge 204 .staged)).charge 204 = some (charge 204 .staged) ∧
      (s 2 (charge 204 .staged)).schedule 2 = some timed) ∧ (∀ l, timed.steps = .moisture l → (charge 204 .staged).samples ≠ []) ∧
    (Offers (s 3 wet) .K 0x22 (rq 0x22 (body 3)) ∧ (s 3 wet).schedule 3 = some moist ∧ wet.samples ≠ []) ∧
    (moist.steps = .moisture [⟨430, 25, 600, 0, 5⟩, ⟨460, 55, 350, 1, 0⟩] ∧ (charge 204 .staged).samples = []) ∧
    ((let t := posted .K 0x22 [2, 0, 204, 2] (dryer .loaded 2 .cold)
      Offers t .K 0x22 (rq 0x22 [2, 0, 204, 2]) ∧ readLoad [2, 0, 204, 2] = .ok (1, 204, 2) ∧ Owns t .K (.kiln 1) ∧
        (t.kiln 1).link ≠ none) ∧
      (s 2 (charge 203 .staged)).charge 204 = none ∧ (charge 204 .loaded).state ≠ .staged ∧
      (s 16 (charge 204 .staged)).schedule 16 = none) := by
  refine ⟨by decide +kernel, nofun, by decide +kernel, by decide +kernel, by decide +kernel⟩

/-- LOADED, DRIED and DRYING; an empty kiln, and another charge than the one named. -/
theorem witness_UnloadClearsTheTie :
    let body : List Byte := [2, 0, 204]
    let s (st : ChargeState) := posted .K 0x23 body (dryer st 2 .cold)
    (Offers (s .loaded) .K 0x23 (rq 0x23 body) ∧ readUnload (rq 0x23 body).body = .ok (1, 204) ∧
      Owns (s .loaded) .K (.kiln 1) ∧ ((s .loaded).kiln 1).link = some 204 ∧
      (s .loaded).charge 204 = some (dried .loaded 2) ∧ (dried .loaded 2).schedule = some 2) ∧
    (Offers (s .dried) .K 0x23 (rq 0x23 body) ∧ (s .dried).charge 204 = some (dried .dried 2)) ∧
    ((s (.active .drying)).charge 204 = some (dried (.active .drying) 2) ∧
      (dried (.active .drying) 2).state ≠ .loaded ∧ (dried (.active .drying) 2).state ≠ .dried) ∧
    (let t := posted .K 0x23 body (base [])
     Offers t .K 0x23 (rq 0x23 body) ∧ Owns t .K (.kiln 1) ∧ (t.kiln 1).link = none) ∧
    (let t := posted .K 0x23 [2, 0, 205] (dryer .loaded 2 .cold)
     Offers t .K 0x23 (rq 0x23 [2, 0, 205]) ∧ readUnload [2, 0, 205] = .ok (1, 205) ∧ (t.kiln 1).link = some 204 ∧
       (204 : Nat) ≠ 205) := by decide +kernel

theorem witness_RetireChargeAndChargeQueryComplete :
    let c (n : Nat) (st : ChargeState) : Charge := { charge 65535 st with refs := n }
    let s (kind : Byte) (n : Nat) (st : ChargeState) := posted .Y kind [0xFF, 0xFF] (base [c n st])
    (Offers (s 0x24 0 .planed) .Y 0x24 (rq 0x24 [0xFF, 0xFF]) ∧ readOne 2 1 65535 (rq 0x24 [0xFF, 0xFF]).body = .ok 65535 ∧
      (s 0x24 0 .planed).charge 65535 = some (c 0 .planed) ∧ (c 0 .planed).state = .planed ∧ (c 0 .planed).refs = 0) ∧
    ((s 0x24 0 .staged).charge 65535 = some (c 0 .staged) ∧ (c 0 .staged).state ≠ .planed) ∧
    ((s 0x24 1 .planed).charge 65535 = some (c 1 .planed) ∧ (c 1 .planed).refs ≠ 0) ∧
    (Offers (s 0x25 0 .planed) .Y 0x25 (rq 0x25 [0xFF, 0xFF]) ∧ readOne 2 0 65535 (rq 0x25 [0xFF, 0xFF]).body = .ok 65535 ∧
      (s 0x25 0 .planed).charge 65535 = some (c 0 .planed)) ∧
    (Offers (posted .Y 0x24 [0, 1] (base [])) .Y 0x24 (rq 0x24 [0, 1]) ∧ readOne 2 1 65535 [0, 1] = .ok 1 ∧
      Offers (posted .Y 0x25 [0, 1] (base [])) .Y 0x25 (rq 0x25 [0, 1]) ∧ readOne 2 0 65535 [0, 1] = .ok 1 ∧
      (base []).charge 1 = none) ∧
    (Offers (posted .Y 0x25 [0, 0] (base [])) .Y 0x25 (rq 0x25 [0, 0]) ∧ readOne 2 0 65535 (rq 0x25 [0, 0]).body = .ok 0) := by
  decide +kernel

/-- Channels at both ends of two bytes and of the range, four cores; a stale kiln and a fresh one; EMPTY and DRIED kilns. -/
theorem witness_KilnReportRefreshesTheKiln :
    let body : List Byte := [2, 0x01, 0xAE, 0x7F, 0xFF, 0]
    let rep : KilnReport := ⟨⟨430, true⟩, ⟨32767, false⟩, []⟩
    let s (st : ChargeState) (kl : Kiln) := posted .K 0x30 body (dryer st 2 kl)
    (-32768 ≤ (-32768 : Int) ∧ (-32768 : Int) ≤ 32767 ∧ (∀ v ∈ ([1500, 1501, -400, -401] : List Int), -32768 ≤ v ∧ v ≤ 32767) ∧
      ([1500, 1501, -400, -401] : List Int).length ≤ 4) ∧
    (Offers (s (.active .drying) .cold) .K 0x30 (rq 0x30 body) ∧ readKilnReport (rq 0x30 body).body = .ok (1, rep) ∧
      ((s (.active .drying) .cold).kiln 1).link = some (dried (.active .drying) 2).id ∧
      (s (.active .drying) .cold).charge 204 = some (dried (.active .drying) 2) ∧
      ((s (.active .drying) .cold).kiln 1).stale = false ∧
      ((s (.active .drying) { Kiln.cold with stale := true }).kiln 1).stale = true) ∧
    (Offers (posted .K 0x30 body (base [])) .K 0x30 (rq 0x30 body) ∧ ((posted .K 0x30 body (base [])).kiln 1).link = none) ∧
    ((s .dried .cold).charge 204 = some (dried .dried 2) ∧ (dried .dried 2).state = .dried) := by decide +kernel

/-- A LOADED charge, a DRIED one, and an EMPTY kiln. -/
theorem witness_StartBeginsDryingAtStepOne :
    let s (st : ChargeState) := posted .K 0x31 [2] (dryer st 2 .cold)
    (Offers (s .loaded) .K 0x31 (rq 0x31 [2]) ∧ readKilnOnly (rq 0x31 [2]).body = .ok 1 ∧ Owns (s .loaded) .K (.kiln 1) ∧
      timed.steps.target 1 = some ⟨430, 25⟩ ∧ (dried .loaded 2).state = .loaded ∧ (dried .dried 2).state ≠ .loaded) ∧
    Holds (s .loaded) 1 (dried .loaded 2) timed ∧ Holds (s .dried) 1 (dried .dried 2) timed ∧
    (let t := posted .K 0x31 [12] (base [])
     Offers t .K 0x31 (rq 0x31 [12]) ∧ readKilnOnly (rq 0x31 [12]).body = .ok 11 ∧ Owns t .K (.kiln 11) ∧
       (t.kiln 11).link = none) :=
  ⟨by decide +kernel, holds_of (n := 2) (by decide +kernel), holds_of (n := 2) (by decide +kernel), by decide +kernel⟩

/-- The four commands on kiln 2 in DRYING at step 1 and at the last step, EQUALIZING, COOLING, HELD, and LOADED; and on a kiln
that is EMPTY. -/
theorem witness_KilnCommandsComplete :
    let s (kind : Byte) (st : ChargeState) (n step : Nat) :=
      posted .K kind [2] (dryer st n { running 400 ⟨430, 25⟩ with step := step })
    (readKilnOnly (rq 0x32 [2]).body = .ok 1 ∧
      (∀ kind ∈ ([0x32, 0x33, 0x34, 0x35] : List Byte), Offers (s kind (.active .drying) 3 1) .K kind (rq kind [2]) ∧
        Owns (s kind (.active .drying) 3 1) .K (.kiln 1))) ∧
    (∀ kind ∈ ([0x32, 0x33, 0x34, 0x35] : List Byte), ∀ st ∈ ([.active .drying, .active .equalizing, .active .cooling,
      .held .drying .command, .loaded] : List ChargeState), Holds (s kind st 3 1) 1 (dried st 3) moist) ∧
    (((s 0x34 (.active .drying) 3 1).kiln 1).step < moist.steps.count ∧ moist.steps.target 2 = some ⟨460, 55⟩) ∧
    (moist.steps.count ≤ ((s 0x34 (.active .drying) 3 2).kiln 1).step ∧ moist.phaseTarget .equalizing = some ⟨820, 60⟩ ∧
      moist.phaseTarget .conditioning = some ⟨820, 25⟩ ∧ moist.phaseTarget .cooling = some ⟨450, 0⟩) ∧
    (dried (.active .cooling) 3).schedule = some 3 ∧
    ((∀ ph, (dried .loaded 3).state ≠ .active ph) ∧ ∀ ph h, (dried .loaded 3).state ≠ .held ph h) ∧
    ∀ kind ∈ ([0x32, 0x33, 0x34, 0x35] : List Byte),
      let t := posted .K kind [2] (base [])
      Offers t .K kind (rq kind [2]) ∧ Owns t .K (.kiln 1) ∧ (t.kiln 1).link = none := by
  refine ⟨by decide +kernel, ?_, by decide +kernel, by decide +kernel, rfl, ⟨nofun, nofun⟩, by decide +kernel⟩
  intro kind _ st _
  exact ⟨rfl, rfl, 3, rfl, rfl⟩

/-- Logs that stand clear of a wrap for `n` writes, at both ends of what that allows; with a mark that is reached by the second
write and one that is not. -/
theorem clear_logs (n : Nat) (h : n ≤ 12) :
    TraceLog.Clear ⟨[], 1, none⟩ n ∧
      TraceLog.Clear ⟨List.replicate 2048 (record 1), 4294967295 - n, some (4294967296 - n)⟩ n :=
  ⟨⟨Nat.zero_le _, .inr ⟨rfl, rfl⟩, by show 1 + n ≤ _; omega⟩,
    ⟨Nat.le_of_eq List.length_replicate, .inl (by show 2 ≤ 4294967295 - n; omega), by show 4294967295 - n + n ≤ _; omega⟩⟩

/-- A HELD kiln whose report turns stale, one whose accrual reaches the HT minutes and whose chart is due; logs clear of a wrap. -/
theorem witness_HeldMinuteFreezesTheKiln :
    let kl : Kiln := { running 600 ⟨600, 25⟩ with
      report := some ⟨⟨600, true⟩, ⟨575, true⟩, [570, 560]⟩, age := 8, chart := 29 }
    let c : Charge := { dried (.held .drying .command) 2 with htAccrual := 29 }
    let s (kl : Kiln) (g : TraceLog) : State := { dryer c.state 2 kl with
      charges := ⟨[c], 341⟩, kilns := (base []).kilns.set 1 { kl with link := some 204 }, trace := g }
    let g : TraceLog := ⟨List.replicate 2048 (record 1), 4294967295 - 3, some (4294967296 - 3)⟩
    ((s kl g).retention.phase = .running ∧ c.state = .held .drying .command ∧ ((s kl g).kiln 1).timer = true) ∧
    Holds (s kl g) 1 c timed ∧ (s kl g).trace.Clear 3 ∧ TraceLog.Clear ⟨[], 1, none⟩ 3 ∧
    ((s kl g).param 4 = 10 ∧ (s kl g).param 5 = 560 ∧ (s kl g).param 6 = 30 ∧ (s kl g).param 7 = 30 ∧
      ([570, 560] : List Int).min? = some 560) ∧
    Holds (s { kl with age := 9 } g) 1 c timed :=
  ⟨by decide +kernel, holds_of (n := 2) (by decide +kernel), (clear_logs 3 (by decide)).2, (clear_logs 3 (by decide)).1,
    by decide +kernel, holds_of (n := 2) (by decide +kernel)⟩

/-- A minute without a trigger, one that ends a step, one that ends equalizing by time, and one that dries the charge; a minute
that turns the report stale, the deviation state and the overtime flag; a hot one that certifies; logs clear of a wrap. -/
theorem witness_ActiveMinuteCountsRampsAndTriggers :
    let fed (kl : Kiln) : Kiln := { kl with report := some ⟨⟨430, true⟩, ⟨405, true⟩, [450]⟩ }
    let s (ph : Phase) (n : Nat) (kl : Kiln) := dryer (.active ph) n kl
    let early := fed (running 430 ⟨430, 25⟩)
    let late := { early with stepOn := 2 }
    let even := { fed (running 430 ⟨820, 60⟩) with step := 0, phaseOn := 1439 }
    let cool := { fed (running 430 ⟨450, 0⟩) with step := 0, phaseOn := 719 }
    let turns := { early with age := 9, offRun := 29, stepOn := 6 }
    let hot : Kiln := { early with report := some ⟨⟨430, true⟩, ⟨405, true⟩, [560]⟩, chart := 29 }
    (∀ x ∈ ([(.drying, 2, early), (.drying, 2, late), (.equalizing, 3, even), (.cooling, 2, cool), (.drying, 3, turns),
        (.drying, 2, hot)] : List (Phase × Nat × Kiln)),
      (s x.1 x.2.1 x.2.2).retention.phase = .running ∧ ((s x.1 x.2.1 x.2.2).kiln 1).timer = true ∧
        ((s x.1 x.2.1 x.2.2).kiln 1).target.isSome = true ∧ (dried (.active x.1) x.2.1).state = .active x.1) ∧
    (Holds (s .drying 2 early) 1 (dried (.active .drying) 2) timed ∧ Holds (s .drying 2 late) 1 (dried (.active .drying) 2) timed ∧
      Holds (s .equalizing 3 even) 1 (dried (.active .equalizing) 3) moist ∧
      Holds (s .cooling 2 cool) 1 (dried (.active .cooling) 2) timed ∧
      Holds (s .drying 3 turns) 1 (dried (.active .drying) 3) moist ∧
      Holds (s .drying 2 hot) 1 (dried (.active .drying) 2) timed) ∧
    (phaseTrigger .drying timed { early with stepOn := 1 } (dried (.active .drying) 2) = none ∧
      phaseTrigger .drying timed { late with stepOn := 3 } (dried (.active .drying) 2) = some false ∧
      phaseTrigger .equalizing moist { even with phaseOn := 1440 } (dried (.active .equalizing) 3) = some true ∧
      nextChange timed .cooling 0 = .dried ∧ nextChange timed .drying 1 ≠ .dried) ∧
    (s .drying 2 early).trace.Clear 5 ∧
    TraceLog.Clear ⟨List.replicate 2048 (record 1), 4294967295 - 5, some (4294967296 - 5)⟩ 5 :=
  ⟨by decide +kernel, ⟨holds_of (n := 2) (by decide +kernel), holds_of (n := 2) (by decide +kernel),
    holds_of (n := 3) (by decide +kernel), holds_of (n := 2) (by decide +kernel), holds_of (n := 3) (by decide +kernel),
    holds_of (n := 2) (by decide +kernel)⟩, by decide +kernel, (clear_logs 5 (by decide)).1, (clear_logs 5 (by decide)).2⟩

theorem witness_TriggersEndStepsAndPhases :
    (moist.steps = .moisture [⟨430, 25, 600, 0, 5⟩, ⟨460, 55, 350, 1, 0⟩] ∧
      ([⟨430, 25, 600, 0, 5⟩, ⟨460, 55, 350, 1, 0⟩] : List MoistureStep)[({ Kiln.cold with step := 2 }).step - 1]? =
        some ⟨460, 55, 350, 1, 0⟩) ∧
    (timed.steps = .time [⟨430, 25, 3⟩, ⟨460, 55, 2⟩] ∧
      ([⟨430, 25, 3⟩, ⟨460, 55, 2⟩] : List TimeStep)[({ Kiln.cold with step := 1 }).step - 1]? = some ⟨430, 25, 3⟩) ∧
    (moist.equalize = some ⟨820, 60, 15, 1440⟩ ∧ (dried .loaded 3).finalTarget = some 190 ∧
      moist.conditioning = some ⟨820, 25, 480⟩) := by decide +kernel

/-- At the target, without a limit, up, down, and onto the target by the last sixtieth. -/
theorem witness_RampMovesByTheAccumulatedSixtieths :
    (430 : Nat) = 430 ∧ (430 : Nat) ≠ 431 ∧ 430 + (59 + 200) / 60 < 435 ∧ 425 + (59 + 200) / 60 < 430 ∧
      (431 ≤ 430 + (59 + 1) / 60 ∧ 430 ≤ 431 + (59 + 1) / 60) ∧ 400 + 60 * 30 / 60 < 460 ∧ 400 + 60 * 30 / 60 < 500 := by decide

/-- Each query with its forms: an EMPTY kiln and an occupied one, a sequence held and one overwritten, after a wrap too, a lot and
a pack held and absent, a run and none. -/
theorem witness_QueriesReportTheStateAsItStands :
    let s (kind : Byte) (b : List Byte) : State := posted .K kind b { line planing with
      lots := ⟨[lot17], 17⟩, packs := { PackBuilder.cold with packs := [pack 311 .isOpen] }
      trace := ⟨[record 10297, record 10298], 10299, none⟩ }
    let d := posted .K 0x36 [2] (dryer (.active .drying) 2 (running 400 ⟨430, 25⟩))
    let w : TraceLog := ⟨[record 4294967294, record 4294967295], 1, none⟩
    (1 ≤ 1 ∧ 4294967295 ≤ 4294967295 ∧ 8 ≤ 8 ∧ 1 ≤ 48 ∧ 48 ≤ 48 ∧ 65535 ≤ 65535) ∧
    (Offers (s 0x36 [12]) .K 0x36 (rq 0x36 [12]) ∧ readKilnOnly (rq 0x36 [12]).body = .ok 11 ∧
      ((s 0x36 [12]).kiln 11).link = none ∧ Offers d .K 0x36 (rq 0x36 [2]) ∧ readKilnOnly (rq 0x36 [2]).body = .ok 1 ∧
      (d.kiln 1).link = some (dried (.active .drying) 2).id ∧ d.charge 204 = some (dried (.active .drying) 2)) ∧
    (Offers (s 0x80 (beBytes 4 10297 ++ [8])) .K 0x80 (rq 0x80 (beBytes 4 10297 ++ [8])) ∧
      readTraceRead (beBytes 4 10297 ++ [8]) = .ok (10297, 8) ∧ (s 0x80 []).trace.next - (s 0x80 []).trace.ring.length ≤ 10297 ∧
      readTraceRead (beBytes 4 10296 ++ [1]) = .ok (10296, 1) ∧ 10296 < (s 0x80 []).trace.next - (s 0x80 []).trace.ring.length ∧
      w.next = 1 ∧ w.ring = record 4294967294 :: [record 4294967295] ∧ (base []).trace.ring = [] ∧
      (base []).trace.next ≤ 1) ∧
    (Offers (s 0x52 [17]) .K 0x52 (rq 0x52 [17]) ∧ readOne 1 0 255 [0] = .ok 0 ∧ readOne 1 0 255 [17] = .ok 17 ∧
      (s 0x52 [17]).lot 17 = some lot17 ∧ readOne 1 0 255 [255] = .ok 255 ∧ (s 0x52 [255]).lot 255 = none) ∧
    (Offers (s 0x63 [1]) .K 0x63 (rq 0x63 [1]) ∧ readPackForm [0, 1, 55] = .ok (.single 311) ∧
      (s 0x63 [1]).pack 311 = some (pack 311 .isOpen) ∧ readPackForm [0, 0, 1] = .ok (.single 1) ∧ (s 0x63 [1]).pack 1 = none ∧
      readPackForm [1] = .ok .listing ∧ readPackForm [2] = .ok .bins) ∧
    Offers (s 0x73 []) .K 0x73 (rq 0x73 []) ∧
    (Offers (s 0x49 [0]) .K 0x49 (rq 0x49 [0]) ∧ readRunForm [0] = .ok .summary ∧ (s 0x49 [0]).tracker.run = some planing ∧
      (base []).tracker.run = none ∧ readRunForm [1, 1] = .ok (.queueA 1) ∧ readRunForm [2, 48] = .ok (.queueB 48) ∧
      readRunForm [3] = .ok .sortMap) :=
  ⟨by decide, by decide +kernel, by decide +kernel, by decide +kernel, by decide +kernel, by decide +kernel, by decide +kernel⟩

/-- A full ring, the last sequence, a wrap, a mark at the next sequence and one above; the mark cleared, fired and set. -/
theorem witness_TraceWritesAndTheMark :
    let s (t : TraceLog) : State := { base [] with trace := t }
    let m (n : Nat) (b : List Byte) : State := posted .Y 0x81 b { base [] with trace := ⟨[record 1], n, none⟩ }
    (2048 ≤ (s ⟨List.replicate 2048 (record 1), 4294967295, none⟩).trace.ring.length ∧
      (s ⟨List.replicate 2048 (record 1), 4294967295, none⟩).trace.next ≠ 1) ∧
    ((s ⟨[record 4294967295], 1, some 5⟩).trace.next = 1 ∧ (s ⟨[record 4294967295], 1, some 5⟩).trace.ring ≠ [] ∧
      (s ⟨[], 1, none⟩).trace.ring = []) ∧
    ((s ⟨[], 7, some 7⟩).trace.mark = some 7 ∧ 7 ≤ (s ⟨[], 7, some 7⟩).trace.next ∧ ¬8 ≤ (s ⟨[], 7, some 8⟩).trace.next) ∧
    ((s ⟨[], 7, some 8⟩).kiln 0).report = none ∧
    (Offers (m 2 (beBytes 4 1)) .Y 0x81 (rq 0x81 (beBytes 4 1)) ∧ readOne 4 0 4294967295 (beBytes 4 0) = .ok 0 ∧
      readOne 4 0 4294967295 (beBytes 4 1) = .ok 1 ∧ 1 < (m 2 []).trace.next ∧
      readOne 4 0 4294967295 (beBytes 4 4294967295) = .ok 4294967295 ∧ (m 2 []).trace.next ≤ 4294967295) := by decide +kernel

theorem witness_ClockCountsMinutesOfTheCalendar :
    let body : List Byte := [0x08, 0x97, 12, 31, 23, 59]
    (Offers (posted .Y 0x82 body (base [])) .Y 0x82 (rq 0x82 body) ∧ readSetClock body = .ok ⟨2199, 12, 31, 23, 59⟩) ∧
    ({ base [] with clock := ⟨4294967295, true⟩ }.clock.isSet = true ∧ (base []).clock.isSet = false) ∧
    (2000 ≤ 2000 ∧ 2000 ≤ 2199 ∧ 1 ≤ 2 ∧ 2 ≤ 12 ∧ 1 ≤ 29 ∧ 29 ≤ monthDays 2000 2 ∧ 23 ≤ 23 ∧ 59 ≤ 59) := by decide +kernel

/-- OPEN RUN with no run; an OPEN run with two sources and boards or none in its queues; and each refusal: a run in progress, no
charge, a charge that is not RELEASED, no OPEN run, three sources, another species, one source. -/
theorem witness_RunRequestsComplete :
    let b207 : Charge := charge 207 .released
    let s (kind : Byte) (b : List Byte) (n : Run) : State :=
      posted .K kind b ((line n).withCharges ⟨[charge 204 .planing, b207], 341⟩)
    let none_ := posted .K 0x40 [0, 207, 255, 150, 0] (base [b207])
    let two := { planing with sources := [204, 207] }
    let three := { planing with sources := [204, 205, 206] }
    let drains := { planing with state := .draining, sources := [] }
    let busy := { planing with queueA := [board 7 none none], queueB := [board 6 (some .ok) (some 171)] }
    (Owns none_ .K .planer ∧ Offers none_ .K 0x40 (rq 0x40 [0, 207, 255, 150, 0]) ∧
      readOpenRun [0, 207, 255, 150, 0] = .ok ⟨207, 255, 150, 0⟩ ∧ none_.tracker.run = none ∧
      none_.charge 207 = some b207 ∧ b207.state = .released) ∧
    (Owns (s 0x41 [0, 207] two) .K .planer ∧ Offers (s 0x41 [0, 207] two) .K 0x41 (rq 0x41 [0, 207]) ∧
      readOne 2 1 65535 [0, 207] = .ok 207 ∧ (s 0x41 [0, 207] two).tracker.run = some two ∧ two.state = .isOpen ∧
      two.sources.length < 3 ∧ (s 0x41 [0, 207] two).charge 207 = some b207 ∧ b207.species = two.species ∧
      b207.thickness = two.thickness) ∧
    (Offers (s 0x42 [] two) .K 0x42 (rq 0x42 []) ∧ two.sources = 204 :: 207 :: [] ∧ 204 ∉ (207 :: [] : List Nat) ∧
      (s 0x42 [] two).charge 204 = some (charge 204 .planing)) ∧
    (Offers (s 0x43 [] two) .K 0x43 (rq 0x43 []) ∧ two.queueA = [] ∧ two.queueB = [] ∧ busy.state = .isOpen ∧
      (busy.queueA ≠ [] ∨ busy.queueB ≠ [])) ∧
    (Offers (s 0x44 [] busy) .K 0x44 (rq 0x44 []) ∧ (s 0x44 [] busy).tracker.run = some busy) ∧
    (Offers (s 0x40 [0, 207, 255, 150, 0] two) .K 0x40 (rq 0x40 [0, 207, 255, 150, 0]) ∧
      (s 0x40 [0, 207, 255, 150, 0] two).tracker.run ≠ none ∧ (base []).charge 207 = none ∧
      (charge 207 .staged).state ≠ .released) ∧
    ((s 0x41 [0, 207] drains).tracker.run = some drains ∧ drains.state = .draining ∧
      3 ≤ three.sources.length ∧ (s 0x41 [0, 208] two).charge 208 = none ∧ (charge 204 .planing).state ≠ .released ∧
      ({ b207 with thickness := 49 } : Charge).thickness ≠ two.thickness ∧ planing.sources.length < 2) ∧
    (Offers (posted .K 0x44 [] (base [])) .K 0x44 (rq 0x44 []) ∧ (posted .K 0x44 [] (base [])).tracker.run = none) :=
  ⟨by decide +kernel, by decide +kernel, by decide +kernel, by decide +kernel, by decide +kernel, by decide +kernel,
    by decide +kernel, by decide +kernel⟩

/-- A sort map of n entries in key order. -/
def sorted (n : Nat) : List SortEntry := (List.range n).map fun i => ⟨1, i + 50, 8, 20⟩

theorem witness_SortMapRequestsComplete :
    let body : List Byte := [8] ++ beBytes 2 400 ++ [8, 20]
    let s (kind : Byte) (b : List Byte) (l : List SortEntry) : State :=
      posted .K kind b { base [] with tracker := { Tracker.cold false with sortMap := l } }
    let e : SortEntry := ⟨8, 400, 8, 20⟩
    (Owns (s 0x46 body [e]) .K .planer ∧ Offers (s 0x46 body [e]) .K 0x46 (rq 0x46 body) ∧ readSortEntry body = .ok e ∧
      (s 0x46 body [e]).tracker.binOf 8 400 8 = some 20) ∧
    ((s 0x46 body (sorted 47)).tracker.binOf 8 400 8 = none ∧ (s 0x46 body (sorted 47)).tracker.sortMap.length < 48 ∧
      (s 0x46 body (sorted 48)).tracker.binOf 8 400 8 = none ∧ 48 ≤ (s 0x46 body (sorted 48)).tracker.sortMap.length) ∧
    (Offers (s 0x47 (body.take 4) [e]) .K 0x47 (rq 0x47 (body.take 4)) ∧ readSortKeyOnly (body.take 4) = .ok (8, 400, 8)) ∧
    Offers (s 0x48 [] [e]) .K 0x48 (rq 0x48 []) := by decide +kernel

/-- `n` boards of charge 204. -/
def boards (n : Nat) : List Board := (List.range n).map fun i => board (i + 100) none none

/-- A low and a high level; no run, a DRAINING run, and an OPEN one with 15 and with 16 boards in queue A, and with 47 and 48 in
queue B. -/
theorem witness_EyeEdgesTrackOrStray :
    let s (n : Run) := line n
    let full : Run := { planing with queueA := boards 16, queueB := boards 48 }
    ((base []).retention.phase = .running ∧ (base []).tracker.eye = false ∧ (base []).tracker.run = none ∧
      { base [] with tracker := Tracker.cold true }.tracker.eye = true) ∧
    ((s { planing with state := .draining }).tracker.run = some { planing with state := .draining } ∧
      ({ planing with state := .draining } : Run).state = .draining) ∧
    ((s { planing with queueA := boards 15 }).tracker.eye = false ∧ planing.state = .isOpen ∧ planing.sources = 204 :: [] ∧
      (boards 15).length < 16) ∧
    (16 ≤ (boards 16).length ∧ boards 16 = board 100 none none :: (boards 16).tail ∧
      ({ planing with queueB := (boards 47) } : Run).queueB.length < 48) ∧
    ((s full).tracker.run = some full ∧ full.state = .isOpen ∧ 16 ≤ full.queueA.length ∧ full.queueB.length = 48 ∧
      full.queueB = board 100 none none :: (boards 48).tail) := by decide +kernel

/-- A frame with a reading and a void one; the idle end of two bytes; no run; queue A empty; queue B with 47 and 48 boards. -/
theorem witness_MeterFramesPairWithTheOldestBoard :
    let x : MeterByte := ⟨0xA5, false⟩
    let hi : MeterByte := ⟨0x00, false⟩
    let lo : MeterByte := ⟨0x98, false⟩
    let t : MeterByte := ⟨0x04, false⟩
    let s (n : Run) (l : List MeterByte) : State := { line n with tracker := { (line n).tracker with receiver := l } }
    let read (b : Byte) (e : Bool) : Option (Nat × Int) :=
      if hi.byte.toNat * 256 + lo.byte.toNat = 65535 ∨ b ≠ x.byte + hi.byte + lo.byte + t.byte ∨ x.framingError = true ∨
          hi.framingError = true ∨ lo.framingError = true ∨ t.framingError = true ∨ e = true
        then none else some (hi.byte.toNat * 256 + lo.byte.toNat, t.byte.toInt)
    let n := { planing with queueA := [board 7 none none], queueB := boards 47 }
    let full := { planing with queueA := [board 7 none none], queueB := boards 48 }
    ((base []).retention.phase = .running ∧ (base []).tracker.receiver = [] ∧ ([x, hi, lo] : List MeterByte).length ≠ 4) ∧
    ((s n [x, hi, lo, t]).tracker.receiver = [x, hi, lo, t] ∧ some (152, 4) = read 0x41 false ∧ none = read 0x40 false ∧
      none = read 0x41 true) ∧
    (s n [x, hi]).tracker.receiver ≠ [] ∧ (base []).tracker.run = none ∧
    ((s planing [x, hi, lo, t]).tracker.run = some planing ∧ planing.queueA = []) ∧
    (n.queueA = board 7 none none :: [] ∧ n.queueB.length < 48 ∧ n.meter = .ok ∧ ({ n with meter := .lost } : Run).meter = .lost ∧
      (s n []).charge (board 7 none none).charge = some { charge 204 .planing with finalTarget := some 190 } ∧
      (s n []).species 7 = some oak) ∧
    (full.queueB.length = 48 ∧ full.queueA ≠ [] ∧ full.queueB = board 100 none none :: full.queueB.tail) := by decide +kernel

/-- Lengths at and just above a bound, and above the last. -/
theorem witness_BoardFiguresRoundAsStated :
    ((4800 ≤ (defaultBands.get 5).bound ∧ ∀ j : Fin 8, j < 5 → (defaultBands.get j).bound < 4800) ∧
      (4801 ≤ (defaultBands.get 6).bound ∧ ∀ j : Fin 8, j < 6 → (defaultBands.get j).bound < 4801)) ∧
    ∀ i : Fin 8, (defaultBands.get i).bound < 7501 := by decide +kernel

/-- Four lots of other species: the lot table is full. -/
def otherLots (n : Nat) : List Lot := (List.range n).map fun i => { lot17 with number := i + 1, species := i + 8 }

/-- `n` LABELLED packs: with 64 the register is full. -/
def packsOf (n : Nat) : List Pack := (List.range n).map fun i => { pack (i + 1) .labelled with serial := some (i + 1) }

/-- No run; the board in queue A, in neither queue, and in queue B: WET with a lot free and none, grade 0, an unmapped key, a
mapped key with a place in the register and without. -/
theorem witness_BoardGradeDecidesTheBoard :
    let body : List Byte := [0, 7, 3] ++ beBytes 2 150 ++ beBytes 2 4800
    let s (n : Run) (l : List Lot) (q : List Pack) : State :=
      let t := line n
      posted .P 0x45 body { t with
        tracker := { t.tracker with sortMap := [⟨3, 150, 6, 4⟩] }, lots := ⟨l, 17⟩
        packs := { t.packs with packs := q } }
    let wet := board 7 (some .wet) (some 236)
    let ok := board 7 (some .ok) (some 171)
    let n (b : Board) : Run := { planing with queueB := [b] }
    let h : HandedBoard := handed 204 .ok (some 171)
    (Offers (posted .P 0x45 body (base [])) .P 0x45 (rq 0x45 body) ∧ readGradeReport body = .ok ⟨7, 3, 150, 4800⟩ ∧
      (posted .P 0x45 body (base [])).tracker.run = none) ∧
    (Offers (s (n ok) [] []) .P 0x45 (rq 0x45 body) ∧ (s (n ok) [] []).tracker.run = some (n ok) ∧
      ∃ b ∈ ({ planing with queueA := [board 7 none none] } : Run).queueA, b.seq = 7) ∧
    ((∀ b ∈ (n (board 8 none none)).queueA, b.seq ≠ 7) ∧ ∀ b ∈ (n (board 8 none none)).queueB, b.seq ≠ 7) ∧
    ((∀ a ∈ (n wet).queueA, a.seq ≠ 7) ∧ (n wet).queueB.find? (fun x => x.seq == 7) = some wet ∧ wet.cls = some .wet ∧
      (s (n wet) [] []).handToLot 7 50 204 36000 = (((s (n wet) [] []).handToLot 7 50 204 36000).1, some 18) ∧
      (s (n wet) (otherLots 4) []).handToLot 7 50 204 36000 =
        (((s (n wet) (otherLots 4) []).handToLot 7 50 204 36000).1, none)) ∧
    ((n ok).queueB.find? (fun x => x.seq == 7) = some ok ∧ ok.cls ≠ some .wet ∧
      ¬(ok.cls = some .noReading ∧ (n ok).policy = .redry) ∧ readGradeReport (body.set 2 0) = .ok ⟨7, 0, 150, 4800⟩ ∧
      (line (n ok)).tracker.binOf 3 150 6 = none ∧ (s (n ok) [] []).tracker.binOf 3 150 6 = some 4 ∧ ok.cls = some .ok ∧
      (s (n ok) [] []).handToBin false 4 h = (((s (n ok) [] []).handToBin false 4 h).1, some 1) ∧
      (s (n ok) [] (packsOf 64)).handToBin false 4 h = (((s (n ok) [] (packsOf 64)).handToBin false 4 h).1, none)) := by
  decide +kernel

/-- A contributor again, a fourth and a fifth; an open lot, three and four lots of other keys; an OPEN pack of the key and of
another, short of its target, at it, and at 2000 pieces; 63 and 64 records, the flag clear and set. -/
theorem witness_HandedBoardsJoinLotsAndPacks :
    let s (l : List Lot) (q : List Pack) (tg : BinTarget) (blocked : Bool) : State := { base [] with
      lots := ⟨l, 17⟩, packs := { PackBuilder.cold with packs := q, targets := .replicate 20 tg, blocked := blocked } }
    let q (pieces : Nat) : Pack := { pack 311 .isOpen with pieces := pieces }
    (204 ∈ lot17.contributors.map Contributor.charge ∧
      (219 ∉ (lot17.contributors.take 3).map Contributor.charge ∧ (lot17.contributors.take 3).length < 4) ∧
      219 ∉ lot17.contributors.map Contributor.charge ∧ 4 ≤ lot17.contributors.length) ∧
    ((s [lot17] [] (.pieces 200) false).openLot 7 50 = some lot17 ∧
      (s (otherLots 3) [] (.pieces 200) false).openLot 7 50 = none ∧ (otherLots 3).length < 4 ∧
      (s (otherLots 4) [] (.pieces 200) false).openLot 7 50 = none ∧ 4 ≤ (otherLots 4).length) ∧
    ((s [] [q 198] (.pieces 200) false).openPack 4 = some (q 198) ∧ (q 198).key = (handed 204 .ok none).key ∧
      (q 198).key ≠ ({ handed 204 .ok none with key := ⟨7, 50, 150, 3, 5⟩ } : HandedBoard).key ∧
      (s [] [] (.pieces 200) false).openPack 4 = none) ∧
    ((s [] [q 198] (.pieces 200) false).target (q 198).bin = .pieces 200 ∧ ¬200 ≤ (q 198).pieces + 1 ∧
      (q 198).pieces + 1 < 2000 ∧ 200 ≤ (q 199).pieces + 1 ∧
      (s [] [q 1999] (.volume 10000000) false).target (q 1999).bin = .volume 10000000 ∧
      ¬10000000 ≤ (q 1999).volume + 36000 ∧ 2000 ≤ (q 1999).pieces + 1) ∧
    ((s [] (packsOf 63) (.pieces 200) false).packs.packs.length < 64 ∧
      64 ≤ (s [] (packsOf 64) (.pieces 200) true).packs.packs.length ∧
      (s [] (packsOf 64) (.pieces 200) true).packs.blocked = true ∧
      (s [] (packsOf 64) (.pieces 200) false).packs.blocked = false) := by decide +kernel

/-- A lot OPEN and CLOSED, 31 and 32 charges; a close with 8 jobs, with 7 while SENDING, and while IDLE; a bin with an OPEN pack
that meets a new target, that does not, and without one; a pack OPEN, LABELLED, and LABELLED with a REPRINT job. -/
theorem witness_LotAndPackRequestsComplete :
    let l (st : LotState) (n : Nat) : State := { base (staged n) with lots := ⟨[{ lot17 with state := st }], 17⟩ }
    let y (st : PackState) (jobs : List Job) : State :=
      yard [{ pack 311 st with serial := some 7 }] { LabelEngine.cold with queue := jobs, state := .halted }
    let job : Job := ⟨.reprint, 311, some 7⟩
    let target : List Byte := [4, 1] ++ beBytes 4 1
    let high : List Byte := [4, 1] ++ beBytes 4 2000
    (readOne 1 1 255 [17] = .ok 17 ∧ Offers (posted .Y 0x50 [17] (l .isOpen 31)) .Y 0x50 (rq 0x50 [17]) ∧
      (posted .Y 0x50 [17] (l .isOpen 31)).lot 17 = some lot17 ∧ lot17.state = .isOpen ∧
      (posted .Y 0x50 [17] (l .closed 31)).lot 17 = some { lot17 with state := .closed }) ∧
    (Offers (posted .Y 0x50 [1] (base [])) .Y 0x50 (rq 0x50 [1]) ∧ Offers (posted .Y 0x51 [1] (base [])) .Y 0x51 (rq 0x51 [1]) ∧
      readOne 1 1 255 [1] = .ok 1 ∧ (base []).lot 1 = none) ∧
    (Offers (posted .Y 0x51 [17] (l .isOpen 31)) .Y 0x51 (rq 0x51 [17]) ∧
      (lot17.contributors.map Contributor.charge).Nodup ∧ (l .isOpen 31).charges.entries.length < 32 ∧
      32 ≤ (l .isOpen 32).charges.entries.length) ∧
    (8 ≤ (y .isOpen (List.replicate 8 job)).label.queue.length ∧ (y .isOpen (List.replicate 7 job)).label.queue.length < 8 ∧
      (y .isOpen (List.replicate 7 job)).label.state ≠ .idle ∧ (yard [pack 311 .isOpen] .cold).label.queue.length < 8 ∧
      (yard [pack 311 .isOpen] .cold).label.state = .idle) ∧
    (Offers (posted .K 0x60 target (y .isOpen [])) .K 0x60 (rq 0x60 target) ∧
      Owns (posted .K 0x60 target (y .isOpen [])) .K .planer ∧
      readBinTarget target = .ok (4, .pieces 1) ∧
      (posted .K 0x60 target (y .isOpen [])).openPack 4 = some { pack 311 .isOpen with serial := some 7 } ∧
      (BinTarget.pieces 1).met { pack 311 .isOpen with serial := some 7 } = true ∧ readBinTarget high = .ok (4, .pieces 2000) ∧
      (BinTarget.pieces 2000).met { pack 311 .isOpen with serial := some 7 } = false) ∧
    (Offers (posted .Y 0x61 [4] (y .isOpen [])) .Y 0x61 (rq 0x61 [4]) ∧ readOne 1 1 20 [4] = .ok 4 ∧
      (posted .Y 0x61 [4] (y .labelled [])).openPack 4 = none) ∧
    (Offers (posted .Y 0x62 [1, 55] (y .labelled [])) .Y 0x62 (rq 0x62 [1, 55]) ∧ readOne 2 1 65535 [1, 55] = .ok 311 ∧
      (posted .Y 0x62 [1, 55] (y .labelled [])).pack 311 = some { pack 311 .labelled with serial := some 7 } ∧
      ({ pack 311 .isOpen with serial := some 7 } : Pack).state ≠ .labelled ∧
      (∃ j ∈ (y .labelled [job]).label.queue, j.kind = .reprint ∧ j.pack = 311) ∧
      (∀ j ∈ (y .labelled [⟨.pack, 311, none⟩]).label.queue, j.kind = .reprint → j.pack ≠ 311) ∧
      ((pack 311 .labelled).contributors.map Contributor.charge).Nodup ∧
      Offers (posted .Y 0x62 [0, 1] (base [])) .Y 0x62 (rq 0x62 [0, 1]) ∧ readOne 2 1 65535 [0, 1] = .ok 1 ∧
      (base []).pack 1 = none) := by
  refine ⟨?_, ?_, ?_, ?_, ?_, ?_, ?_⟩ <;> decide +kernel

/-- Jobs with a serial and without; an engine IDLE, SENDING, VERIFYING and HALTED, with a halt pending and without, with a
queue of 0, 7 and 8. -/
theorem witness_PrinterRequestsComplete :
    let job : Job := ⟨.pack, 311, none⟩
    let e (n : Nat) (st : EngineState) (pend : Bool) : LabelEngine :=
      { LabelEngine.cold with queue := List.replicate n job, state := st, haltPending := pend }
    let s (kind : Byte) (b : List Byte) (st : PackState) (e : LabelEngine) := posted .K kind b (yard [pack 311 st] e)
    ((yard [pack 311 .labelQueued] (e 1 .halted false)).label.queue = job :: [] ∧
      (yard [pack 311 .labelQueued] (e 1 .halted false)).pack job.pack = some (pack 311 .labelQueued)) ∧
    (Owns (s 0x70 [1, 55] .labelled (e 7 .halted false)) .K .printer ∧
      Offers (s 0x70 [1, 55] .labelled (e 7 .halted false)) .K 0x70 (rq 0x70 [1, 55]) ∧ readOne 2 1 65535 [1, 55] = .ok 311 ∧
      (s 0x70 [1, 55] .labelled (e 7 .halted false)).pack 311 = some (pack 311 .labelled) ∧
      (e 7 .halted false).queue.length < 8 ∧ (e 7 .halted false).state ≠ .idle ∧ (e 0 .idle false).queue.length < 8 ∧
      (pack 311 .isOpen).state ≠ .labelled ∧ 8 ≤ (e 8 .sending false).queue.length ∧
      Offers (posted .K 0x70 [0, 1] (base [])) .K 0x70 (rq 0x70 [0, 1]) ∧ readOne 2 1 65535 [0, 1] = .ok 1 ∧
      (base []).pack 1 = none) ∧
    (Offers (s 0x71 [] .labelled (e 0 .idle false)) .K 0x71 (rq 0x71 []) ∧ (e 0 .idle false).state = .idle ∧
      (e 1 .sending false).state = .sending ∧ (e 1 .verifying false).state = .verifying ∧
      (e 1 .verifying true).haltPending = true ∧ (e 1 .verifying true).state ≠ .idle) ∧
    (Offers (s 0x72 [] .labelled (e 0 .halted false)) .K 0x72 (rq 0x72 []) ∧ (e 0 .halted false).queue = [] ∧
      (e 2 .halted false).queue = job :: [job] ∧ (e 1 .sending true).haltPending = true ∧
      (e 1 .sending true).queue = job :: [] ∧ (e 0 .idle false).state = .idle) := by decide +kernel

/-- A wait, no wait, no cycle; two CLOSED packs, and none, behind a job and at an IDLE engine with an empty queue; a field's count, its last character, its end with a halt
pending and without; the execute phase; the third and the fourth read, with the serial and with another. -/
theorem witness_BusEventsDriveTheLabel :
    let s (e : LabelEngine) : State := yard [pack 311 .labelQueued] e
    let cyc := Bus.cycle ⟨.read, 2, 4, 2⟩
    let verify (serial : Nat) (reads : List Byte) : LabelEngine := { sending 0 0 [] with
      queue := [⟨.pack, 311, some serial⟩], state := .verifying, field := none, reads := reads, bus := cyc }
    ((base []).retention.phase = .running ∧ (s { sending 9 0 [] with bus := .waiting 10000 }).label.bus = .waiting 10000) ∧
    (∀ n, (s (sending 9 0 [])).label.bus ≠ .waiting n) ∧ (∀ c, (base []).label.bus ≠ .cycle c) ∧
    (let t : State := { yard [pack 310 .closed, pack 311 .closed] (sending 9 0 []) with
        packs := { PackBuilder.cold with packs := [pack 310 .closed, pack 311 .closed], closeList := [311, 310] } }
     let u : State := { t with label := LabelEngine.cold }
     t.label.state ≠ .idle ∧ u.label.state = .idle ∧ u.label.queue = [] ∧
       (u.packs.closeList.filter fun id => decide (∃ q, u.pack id = some q ∧ q.state = .closed)).take (8 - u.label.queue.length) =
         311 :: [310] ∧
       u.pack 311 = some (pack 311 .closed) ∧
       ((base []).packs.closeList.filter fun id => decide (∃ q, (base []).pack id = some q ∧ q.state = .closed)).take
         (8 - (base []).label.queue.length) = []) ∧
    ((s (sending 16 0 [0x41])).label.bus = .cycle ⟨.address 1, 2, 4, 2⟩ ∧ (s (sending 16 0 [0x41])).label.field = some 16 ∧
      (16 : Nat) ≠ 0 ∧ (sending 16 0 [0x41]).place ≤ ((sending 16 0 [0x41]).fields.getD (16 - 1) []).length ∧
      (sending 16 1 [0x41]).place ≤ ((sending 16 1 [0x41]).fields.getD (16 - 1) []).length ∧
      ((sending 16 2 [0x41]).fields.getD (16 - 1) []).length < (sending 16 2 [0x41]).place ∧
      (sending 16 2 [0x41]).haltPending = false ∧
      ({ sending 16 2 [0x41] with haltPending := true } : LabelEngine).haltPending = true) ∧
    (s (sending 0 0 [])).label.field = some 0 ∧
    ((s (verify 999999 [9, 0x0F])).label.field = none ∧ (s (verify 999999 [9, 0x0F])).label.reads.length < 3) ∧
    ((s (verify 999999 [9, 0x0F, 0x42])).label.reads = [9, 0x0F, 0x42] ∧
      (s (verify 999999 [9, 0x0F, 0x42])).label.queue = ⟨.pack, 311, some 999999⟩ :: [] ∧
      some 999999 = some ((0x0F : Byte).toNat * 65536 + (0x42 : Byte).toNat * 256 + (0x3F : Byte).toNat) ∧
      some 1 ≠ some ((0x0F : Byte).toNat * 65536 + (0x42 : Byte).toNat * 256 + (0x3F : Byte).toNat) ∧
      (s (verify 999999 [9, 0x0F, 0x42])).label.state = .verifying ∧
      ((s { verify 999999 [] with queue := [] }).fillQueue false).label.queue = [] ∧
      ((s { verify 999999 [] with queue := [⟨.pack, 312, none⟩] }).fillQueue false).label.queue ≠ []) := by
  refine ⟨by decide +kernel, nofun, nofun, ?_⟩
  decide +kernel

/-- An OPEN pack that is not closed, and one closed at the first minute of 2000. -/
theorem witness_LabelTextsReadBack :
    (0 : Nat) < 1 ∧ (pack 311 .isOpen).closedAt = none ∧ ({ pack 311 .closed with closedAt := some 0 } : Pack).closedAt = some 0 ∧
      (dateOf 0).year ≤ 9999 ∧ (dried .planed 2).finalTarget = some 190 := by decide +kernel

/-- RESTART POSTED and not; a log clear of a wrap with a mark that the RESTART record reaches, and with none. -/
theorem witness_RestartRebuildsTheVolatileState :
    let s (g : TraceLog) : State :=
      { posted .Y 0x92 [] (dryer (.active .drying) 2 (running 400 ⟨430, 25⟩)) with trace := g }
    (∀ r, ¬Offers (base []) .Y 0x92 r) ∧ Offers (s ⟨[], 1, none⟩) .Y 0x92 (rq 0x92 []) ∧ (s ⟨[], 1, none⟩).trace.Clear 12 ∧
      (s ⟨List.replicate 2048 (record 1), 4294967295 - 12, some 7⟩).trace.Clear 12 ∧
      (s ⟨[], 1, none⟩).trace.markReached 1 = false ∧
      (s ⟨List.replicate 2048 (record 1), 4294967295 - 12, some 7⟩).trace.markReached 1 = true := by
  refine ⟨?_, by decide +kernel, (clear_logs 12 (by decide)).1, ?_, rfl, by decide +kernel⟩
  · rintro r ⟨-, h, -⟩
    cases h
  · exact ⟨(clear_logs 12 (by decide)).2.ring, (clear_logs 12 (by decide)).2.next, (clear_logs 12 (by decide)).2.room⟩

/-- The three power phases and both values of the marker; a log clear of a wrap. -/
theorem witness_StartsFollowTheMarker :
    let s (marker : Bool) (ph : PowerPhase) : State := { base [] with retention := ⟨marker, .cold, ph⟩ }
    ((s false .starting).retention.phase = .starting ∧ (s false .starting).retention.marker = false) ∧
    ((s true .starting).retention.phase = .starting ∧ (s true .starting).retention.marker = true) ∧
    (¬((s true .starting).retention.phase = .starting ∧ (s true .starting).retention.marker = false) ∧
      ¬((s false .running).retention.phase = .starting ∧ (s false .running).retention.marker = true)) ∧
    ((s true .off).retention.phase = .off ∧ (s true .running).retention.phase ≠ .off) ∧ (s true .starting).trace.Clear 12 ∧
    ((s true .off).retention.phase ≠ .running ∧ takenBy (.claim .K) ≠ none) :=
  ⟨by decide +kernel, by decide +kernel, by decide +kernel, by decide +kernel, (clear_logs 12 (by decide)).1, by decide +kernel⟩

/-- A command that may change no block but the ports, and one that changes the clock alone. -/
theorem witness_OnlyTheNamedCommandsChangeABlock :
    exec (.peek .K .falls) (base []) = .next (after (.peek .K .falls) (base [])) ∧
      (changesClaims (.peek .K .falls) = false ∧ changesLibrary (.peek .K .falls) = false ∧
        changesCharges (.peek .K .falls) = false ∧ changesKilns (.peek .K .falls) = false ∧
        changesTracker (.peek .K .falls) = false ∧ changesLots (.peek .K .falls) = false ∧
        changesPacks (.peek .K .falls) = false ∧ changesLabel (.peek .K .falls) = false ∧
        changesTrace (.peek .K .falls) = false ∧ changesClock (.peek .K .falls) = false ∧
        changesRetention (.peek .K .falls) = false) := ⟨rfl, by decide⟩

/-- A seizure that waits, a cause pending and an answer staged: the step moves the claim to Y; and a cut frame that ends
while a start is under way. -/
theorem witness_EveryStepKeepsPortsAndClaims :
    let u : PortUnit := { (base []).port .K with buffer := some refusal, slot := .doneWaiting refusal }
    let s := (posted .Y 0x03 [13] (unitK u)).withPending [.seize .Y]
    let cut : State := { unitK { (base []).port .K with frame := some ⟨0, none, [], [], true⟩ } with
      retention := ⟨true, .cold, .starting⟩, pending := [.note .K (.rises [1])] }
    ClaimsOk s ∧ CausesOk s ∧ SlotsOk s ∧ step s = .next (after (.seize .Y) (s.withPending [])) ∧
      FramesOk cut ∧ step cut = .next (after (.note .K (.rises [1])) (cut.withPending [])) := by
  refine ⟨?_, ?_, ?_, rfl, ⟨fun _ q f h => ?_⟩, rfl⟩
  · intro res h
    cases res
    case kiln k => revert k h; decide
    all_goals revert h; decide
  · intro p
    cases p <;> decide
  · intro p
    cases p <;> decide
  · cases q <;> cases h
    rfl

/-- Full tables: 32 charges, 4 lots, 64 packs, 8 jobs, 48 sort entries, queues of 16 and 48, and a BOARD GRADE that waits. -/
theorem witness_EveryStepKeepsTablesWithinCapacity :
    let n := { planing with queueA := boards 16, queueB := boards 48, sources := [1, 2, 3], history := List.replicate 16 true }
    let t := line n
    let s : State := (posted .P 0x45 ([0, 101, 3] ++ beBytes 2 150 ++ beBytes 2 4800) { t with
      charges := ⟨staged 32, 341⟩
      tracker := { t.tracker with sortMap := sorted 48, receiver := List.replicate 4 ⟨0xA5, false⟩ }
      lots := ⟨otherLots 4, 17⟩, packs := { t.packs with packs := packsOf 64 }
      label := { LabelEngine.cold with queue := List.replicate 8 ⟨.pack, 1, none⟩ } }).withPending [.boardGrade .P false]
    CapacitiesOk s ∧ RecordsOk s ∧ step s = .next (after (.boardGrade .P false) (s.withPending [])) := by
  refine ⟨⟨⟨by decide +kernel, ?_⟩, ⟨by decide +kernel, ?_⟩, ⟨by decide +kernel, ?_⟩, by decide +kernel, by decide +kernel,
    ⟨by decide +kernel, ?_⟩, by decide +kernel, ?_⟩, ⟨?_, ?_⟩, ?_⟩
  iterate 4
    unfold Rising
    decide +kernel
  · intro m h
    cases h
    exact ⟨by decide +kernel, by decide +kernel, by decide +kernel, by decide +kernel⟩
  · unfold PiecesOk
    decide +kernel
  · unfold PiecesOk
    decide +kernel
  · exact next_after (c := .boardGrade .P false) (by decide +kernel)

theorem timed_targets : TargetsOk timed := by
  have steps : ∀ n t, timed.steps.target n = some t → t.dry ≤ 1100 := by
    intro n t ht
    simp only [Steps.target, timed, Option.map_eq_some_iff] at ht
    obtain ⟨y, hy, rfl⟩ := ht
    have := List.mem_of_getElem? hy
    simp only [List.mem_cons, List.not_mem_nil, or_false] at this
    rcases this with rfl | rfl <;> decide
  refine ⟨steps, fun ph t ht => ?_⟩
  cases ph
  · exact steps 1 t ht
  all_goals cases ht
  decide

theorem moist_targets : TargetsOk moist := by
  have steps : ∀ n t, moist.steps.target n = some t → t.dry ≤ 1100 := by
    intro n t ht
    simp only [Steps.target, moist, Option.map_eq_some_iff] at ht
    obtain ⟨y, hy, rfl⟩ := ht
    have := List.mem_of_getElem? hy
    simp only [List.mem_cons, List.not_mem_nil, or_false] at this
    rcases this with rfl | rfl <;> decide
  refine ⟨steps, fun ph t ht => ?_⟩
  cases ph
  · exact steps 1 t ht
  all_goals cases ht
  all_goals decide

/-- Charge 204, PLANING with a board in queue B, listed by a lot and by a pack: its reference count is 2 and its in-flight
count 1. -/
def referred : State :=
  let s := line { planing with queueB := [board 7 (some .ok) (some 171)] }
  { s with
    charges := ⟨[{ charge 204 .planing with finalTarget := some 190, refs := 2, stats := ⟨1, 0, 0, 171, 1⟩ }], 341⟩
    lots := ⟨[{ lot17 with contributors := [⟨204, 5⟩] }], 17⟩
    packs := { s.packs with packs := [pack 311 .isOpen], lastId := 311 } }

theorem referred_RefsOk : RefsOk referred := by
  have only : ∀ id, referred.listings id ≠ 0 → id = 204 := by
    intro id h
    by_contra hne
    exact h (by simp [State.listings, referred, line, listedIn, pack, openedPack, Ne.symm hne])
  refine ⟨by decide +kernel, fun id h => ⟨_, List.mem_singleton_self _, (only id h).symm⟩, by decide +kernel, by decide +kernel,
    fun _ => by decide +kernel, fun _ n hn => ?_, ⟨List.pairwise_singleton _ _, List.pairwise_singleton _ _,
    List.pairwise_singleton _ _⟩⟩
  cases hn
  refine ⟨fun _ => by decide, fun id h => ⟨_, List.mem_singleton_self _, ?_, rfl⟩⟩
  have h2 : id = 204 := by simpa [planing, board] using h
  exact h2.symm

/-- A DRYING charge under schedule 2, whose in-use count is 1, and its minute that waits; and `referred` before a minute of the
mill clock. -/
theorem witness_EveryStepKeepsSetpointsAndInUseCounts :
    let t := dryer (.active .drying) 2 (running 400 ⟨430, 25⟩)
    let s : State := { t with
      library := { library with inUse := (Table.replicate 16 0).set 1 1 }, pending := [.kilnMinuteExpiry 1] }
    (SetpointsOk s ∧ InUseOk s ∧ step s = .next (after (.kilnMinuteExpiry 1) (s.withPending []))) ∧
    RefsOk (referred.withPending [.millClockMinute]) ∧
      step (referred.withPending [.millClockMinute]) = .next (after .millClockMinute referred) := by
  intro t s
  refine ⟨?_, ⟨referred_RefsOk.counts, referred_RefsOk.present, referred_RefsOk.once, referred_RefsOk.grounded,
    referred_RefsOk.flight, referred_RefsOk.run, referred_RefsOk.keys⟩, rfl⟩
  refine ⟨⟨by decide +kernel, ?_, ?_⟩, ⟨?_, ?_, by decide +kernel, ⟨by decide, List.pairwise_singleton _ _⟩,
    by decide +kernel⟩, next_after (c := .kilnMinuteExpiry 1) (s := s.withPending []) (by decide +kernel)⟩
  · have h : ∀ k, ∀ y ∈ (s.kiln k).target, y.dry ≤ 1100 := by decide +kernel
    exact fun k y hy => h k y hy
  · intro x h
    simp only [s, library, List.mem_cons, List.not_mem_nil, or_false] at h
    rcases h with rfl | rfl
    · exact timed_targets
    · exact moist_targets
  · intro m h1 h2
    interval_cases m <;> decide +kernel
  · have h : ∀ c ∈ s.charges.entries, ∀ n ∈ c.schedule, 1 ≤ n ∧ n ≤ 16 := by decide +kernel
    exact fun c hc n hn => h c hc n hn

/-- A run of two boards of which one was packed, a label being sent, and two records of the ring. -/
theorem witness_EveryStepKeepsBoardsLabelsAndTrace :
    let n := { planing with
      queueB := [board 7 (some .ok) (some 171)], counters := { RunCounters.zero with boardsIn := 2, packed := 1 } }
    let s : State := { line n with
      label := sending 16 0 [0x41], trace := ⟨[record 10297, record 10298], 10299, none⟩
      packs := { PackBuilder.cold with packs := [pack 311 .labelQueued] }, pending := [.busCycleComplete false 0] }
    BoardsOk s ∧ LabelOk s ∧ TraceOk s ∧ step s = .next (after (.busCycleComplete false 0) (s.withPending [])) := by
  intro n s
  refine ⟨?_, ⟨by decide, by decide, by decide, by decide, by decide, by decide⟩, ⟨?_, ?_, by decide⟩, rfl⟩
  · intro m h _
    cases h
    rfl
  · exact .cons_cons rfl (.singleton _)
  · intro x h
    have h2 : s.trace.ring.getLast? = some (record 10298) := rfl
    rw [h2] at h
    cases h
    rfl

end Sys2Proof.Machine.Tests
end

section
/-! SUPPORT. What each command may change: the blocks its chapter names, and at the port units no more than alerts. -/

namespace Sys2Proof.Machine

/-! ## Blocks and alerts -/

/-- The blocks of the part apart from the port units, with the queue of waiting commands. -/
inductive Block
  | claims | library | charges | kilns | tracker | lots | packs | label | trace | clock | retention | queue

/-- Block `b` stands in `t` as in `s`. -/
def SameBlock (s t : State) : Block → Prop
  | .claims => t.claims = s.claims
  | .library => t.library = s.library
  | .charges => t.charges = s.charges
  | .kilns => t.kilns = s.kilns
  | .tracker => t.tracker = s.tracker
  | .lots => t.lots = s.lots
  | .packs => t.packs = s.packs
  | .label => t.label = s.label
  | .trace => t.trace = s.trace
  | .clock => t.clock = s.clock
  | .retention => t.retention = s.retention
  | .queue => t.pending = s.pending

/-- The blocks a command may change; none changes the queue. -/
def mayChange (c : Instr) : Block → Bool
  | .claims => changesClaims c
  | .library => changesLibrary c
  | .charges => changesCharges c
  | .kilns => changesKilns c
  | .tracker => changesTracker c
  | .lots => changesLots c
  | .packs => changesPacks c
  | .label => changesLabel c
  | .trace => changesTrace c
  | .clock => changesClock c
  | .retention => changesRetention c
  | .queue => false

/-- A port unit after alerts: enabled causes have joined its pending set, and nothing else of it has changed (R13). -/
def PortUnit.Alerted (u v : PortUnit) : Prop := ∃ m : BitVec 24, v = { u with pending := u.pending ||| (m &&& u.enabled) }

theorem PortUnit.Alerted.refl (u : PortUnit) : u.Alerted u := ⟨0, by simp⟩

theorem PortUnit.Alerted.trans {u v w : PortUnit} (h : u.Alerted v) (h' : v.Alerted w) : u.Alerted w := by
  obtain ⟨m, rfl⟩ := h
  obtain ⟨n, rfl⟩ := h'
  refine ⟨m ||| n, ?_⟩
  have joined : u.pending ||| m &&& u.enabled ||| n &&& u.enabled = u.pending ||| (m ||| n) &&& u.enabled := by
    ext i hi
    simp only [BitVec.getElem_or, BitVec.getElem_and]
    cases m[i] <;> cases n[i] <;> simp
  simp only [joined]

theorem PortUnit.alerted_raise (u : PortUnit) (c : Cause) : u.Alerted (u.raise c) := ⟨c.bit, rfl⟩

/-- From `s` to `t` no block outside `P` has changed, and the port units have been alerted at most. -/
structure Within (P : Block → Bool) (s t : State) : Prop where
  blocks : ∀ b, P b = false → SameBlock s t b
  alerts : ∀ q, (s.port q).Alerted (t.port q)

section
variable {P : Block → Bool} {s t u : State}

theorem SameBlock.refl (s : State) (b : Block) : SameBlock s s b := by cases b <;> rfl

theorem SameBlock.trans {b : Block} (h : SameBlock s t b) (h' : SameBlock t u b) : SameBlock s u b := by
  cases b <;> exact Eq.trans h' h

theorem Within.refl (s : State) : Within P s s := ⟨fun b _ => .refl s b, fun _ => .refl _⟩

theorem Within.trans (h : Within P s t) (h' : Within P t u) : Within P s u :=
  ⟨fun b hb => (h.blocks b hb).trans (h'.blocks b hb), fun q => (h.alerts q).trans (h'.alerts q)⟩

/-- A change of block `d` alone, within `P`. -/
theorem Within.update (d : Block) (h : Within P s t) (hd : P d = true) (hb : ∀ b, b ≠ d → SameBlock t u b)
    (hp : u.ports = t.ports) : Within P s u := by
  have apart : ∀ b, P b = false → b ≠ d := fun b hb e => by rw [e, hd] at hb; cases hb
  exact h.trans ⟨fun b h => hb b (apart b h), fun q => by rw [State.port, State.port, hp]; exact .refl _⟩

theorem Within.ite {b : Prop} [Decidable b] (ht : Within P s t) (hu : Within P s u) : Within P s (if b then t else u) := by
  split <;> assumption

theorem Within.foldl {α : Type} {f : State → α → State} (hf : ∀ t a, Within P t (f t a)) :
    ∀ (l : List α) {t : State}, Within P s t → Within P s (l.foldl f t)
  | [], _, h => h
  | a :: l, t, h => Within.foldl hf l (h.trans (hf t a))

/-! ## The update of each block -/

theorem Within.withClaims (h : Within P s t) (hp : P .claims = true) (x : Claims) : Within P s (t.withClaims x) :=
  h.update .claims hp (fun b hb => by cases b with | claims => exact absurd rfl hb | _ => rfl) rfl

theorem Within.withLibrary (h : Within P s t) (hp : P .library = true) (x : Library) : Within P s (t.withLibrary x) :=
  h.update .library hp (fun b hb => by cases b with | library => exact absurd rfl hb | _ => rfl) rfl

theorem Within.withCharges (h : Within P s t) (hp : P .charges = true) (x : ChargeTable) : Within P s (t.withCharges x) :=
  h.update .charges hp (fun b hb => by cases b with | charges => exact absurd rfl hb | _ => rfl) rfl

theorem Within.withKilns (h : Within P s t) (hp : P .kilns = true) (x : Table Kiln 12) : Within P s (t.withKilns x) :=
  h.update .kilns hp (fun b hb => by cases b with | kilns => exact absurd rfl hb | _ => rfl) rfl

theorem Within.withTracker (h : Within P s t) (hp : P .tracker = true) (x : Tracker) : Within P s (t.withTracker x) :=
  h.update .tracker hp (fun b hb => by cases b with | tracker => exact absurd rfl hb | _ => rfl) rfl

theorem Within.withLots (h : Within P s t) (hp : P .lots = true) (x : LotTable) : Within P s (t.withLots x) :=
  h.update .lots hp (fun b hb => by cases b with | lots => exact absurd rfl hb | _ => rfl) rfl

theorem Within.withPacks (h : Within P s t) (hp : P .packs = true) (x : PackBuilder) : Within P s (t.withPacks x) :=
  h.update .packs hp (fun b hb => by cases b with | packs => exact absurd rfl hb | _ => rfl) rfl

theorem Within.withLabel (h : Within P s t) (hp : P .label = true) (x : LabelEngine) : Within P s (t.withLabel x) :=
  h.update .label hp (fun b hb => by cases b with | label => exact absurd rfl hb | _ => rfl) rfl

theorem Within.withTrace (h : Within P s t) (hp : P .trace = true) (x : TraceLog) : Within P s (t.withTrace x) :=
  h.update .trace hp (fun b hb => by cases b with | trace => exact absurd rfl hb | _ => rfl) rfl

theorem Within.withClock (h : Within P s t) (hp : P .clock = true) (x : MillClock) : Within P s (t.withClock x) :=
  h.update .clock hp (fun b hb => by cases b with | clock => exact absurd rfl hb | _ => rfl) rfl

theorem Within.withRetention (h : Within P s t) (hp : P .retention = true) (x : Retention) : Within P s (t.withRetention x) :=
  h.update .retention hp (fun b hb => by cases b with | retention => exact absurd rfl hb | _ => rfl) rfl

/-! ## Alerts and the trace log -/

theorem Within.raiseAll (h : Within P s t) (c : Cause) : Within P s (t.raiseAll c) :=
  h.trans ⟨fun b _ => by cases b <;> rfl, fun q => by rw [State.raiseAll_port]; exact PortUnit.alerted_raise _ c⟩

theorem Within.raiseIf (h : Within P s t) (b : Bool) (c : Cause) : Within P s (t.raiseIf b c) :=
  .ite (h.raiseAll c) h

theorem State.raiseAt_port (s : State) (p q : Port) (c : Cause) :
    (s.raiseAt p c).port q = if q = p then (s.port q).raise c else s.port q := by
  by_cases h : q = p
  · subst h; simp [State.raiseAt]
  · simp [State.raiseAt, h, State.setPort_port_ne]

theorem Within.raiseAt (h : Within P s t) (p : Port) (c : Cause) : Within P s (t.raiseAt p c) :=
  h.trans ⟨fun b _ => by cases b <;> rfl, fun q => by
    rw [State.raiseAt_port]
    split
    · exact PortUnit.alerted_raise _ c
    · exact .refl _⟩

theorem Within.writeTrace (h : Within P s t) (ht : P .trace = true) (k : KilnNo) (id : Nat) (kind : TraceKind) :
    Within P s (t.writeTrace k id kind) :=
  (h.withTrace ht _).raiseIf _ _

end
end Sys2Proof.Machine
end

section
/-! SUPPORT. The shared operations of each chapter within their blocks, and every act of a take within its command's. -/

namespace Sys2Proof.Machine

/-! ## What every DONE of an act gives -/

/-- Every value that `x` answers meets `Q`; a refusal says nothing. -/
def Gives {ε α : Type} (Q : α → Prop) (x : Except ε α) : Prop := ∀ a, x = .ok a → Q a

section
variable {ε α β : Type} {Q : β → Prop}

theorem Gives.bind' {x : Except ε α} {f : α → Except ε β} (h : ∀ a, x = .ok a → Gives Q (f a)) : Gives Q (x >>= f) := by
  cases x with
  | error e => intro b hb; cases hb
  | ok a => exact h a rfl

theorem Gives.bind {x : Except ε α} {f : α → Except ε β} (h : ∀ a, Gives Q (f a)) : Gives Q (x >>= f) :=
  .bind' fun a _ => h a

theorem Gives.pure {b : β} (h : Q b) : Gives (ε := ε) Q (pure b) := by
  intro a ha
  cases ha
  exact h

theorem Gives.error (e : ε) : Gives Q (.error e) := by
  intro b hb
  cases hb

theorem Gives.ite {c : Prop} [Decidable c] {x y : Except ε β} (hx : Gives Q x) (hy : Gives Q y) :
    Gives Q (if c then x else y) := by
  split <;> assumption

theorem orRefuse_ok {x : Option α} {e : Reason} {a : α} (h : orRefuse x e = .ok a) : x = some a := by
  cases x <;> cases h
  rfl

end

/-- Every DONE of `act` changes no block outside `P`, and raises alerts at most. -/
def Act.Within (P : Block → Bool) (act : Act) : Prop := ∀ p r s, Gives (fun x => Machine.Within P s x.1) (act p r s)

section
variable {P : Block → Bool} {s t : State}

/-- An act that reads a body and answers from the state as it stands. -/
theorem within_answer (s : State) (b : List Field) : Gives (ε := Reason) (fun x => Machine.Within P s x.1) (pure (s, b)) :=
  .pure (.refl s)

/-! ## Charges and kilns -/

theorem Within.setSamples (h : Within P s t) (hc : P .charges = true) (c : Charge) (l : List Sample) :
    Within P s (t.setSamples c l) :=
  (h.withCharges hc _).raiseIf _ _

theorem Within.setInUse (h : Within P s t) (hl : P .library = true) (n count : Nat) : Within P s (t.setInUse n count) :=
  h.withLibrary hl _

theorem Within.modifyCharge (h : Within P s t) (hc : P .charges = true) (id : Nat) (f : Charge → Charge) :
    Within P s (t.modifyCharge id f) :=
  h.withCharges hc _

theorem Within.setKiln (h : Within P s t) (hk : P .kilns = true) (k : KilnNo) (x : Kiln) : Within P s (t.setKiln k x) :=
  h.withKilns hk _

theorem Within.kilnChange (h : Within P s t) (hk : P .kilns = true) (hc : P .charges = true) (ht : P .trace = true)
    (k : KilnNo) (id : Nat) (kl : Kiln) (f : Charge → Charge) (kind : TraceKind) :
    Within P s (t.kilnChange k id kl f kind) :=
  (((h.setKiln hk k kl).modifyCharge hc id f).raiseAll _).writeTrace ht k id kind

/-- Only the change to DRIED returns a schedule. -/
theorem Within.returnSchedule (h : Within P s t) (c : Charge) (ch : Change) (hl : ch = .dried → P .library = true) :
    Within P s (t.returnSchedule c ch) := by
  unfold State.returnSchedule
  split
  · exact h.setInUse (hl rfl) _ _
  · exact h

theorem Within.applyChange (h : Within P s t) (hk : P .kilns = true) (hc : P .charges = true) (ht : P .trace = true)
    (k : KilnNo) (c : Charge) (x : Schedule) (ch : Change) (more : Charge → Charge) (kind : TraceKind)
    (hl : ch = .dried → P .library = true) : Within P s (t.applyChange k c x ch more kind) :=
  (h.returnSchedule c ch hl).kilnChange hk hc ht k _ _ _ kind

theorem Within.storeReport (h : Within P s t) (hk : P .kilns = true) (ht : P .trace = true) (k : KilnNo) (id : Nat)
    (rep : KilnReport) : Within P s (t.storeReport k id rep) :=
  .ite (((h.setKiln hk k _).raiseAll _).writeTrace ht k id _) (h.setKiln hk k _)

/-- The blocks a kiln minute may change. -/
structure MinuteBlocks (P : Block → Bool) : Prop where
  kilns : P .kilns = true
  charges : P .charges = true
  library : P .library = true
  trace : P .trace = true

theorem Within.minuteAge (h : Within P s t) (m : MinuteBlocks P) (k : KilnNo) (id : Nat) : Within P s (minuteAge k id t) :=
  .ite (((h.setKiln m.kilns k _).raiseAll _).writeTrace m.trace k id _) (h.setKiln m.kilns k _)

theorem Within.minuteDeviation (h : Within P s t) (m : MinuteBlocks P) (k : KilnNo) (id : Nat) (st : ChargeState) :
    Within P s (minuteDeviation k id st t) := by
  unfold Machine.minuteDeviation
  split
  · exact .ite h (((h.setKiln m.kilns k _).raiseAll _).writeTrace m.trace k id _)
  · exact h

theorem Within.minuteRamp (h : Within P s t) (m : MinuteBlocks P) (k : KilnNo) (st : ChargeState) (x : Schedule) :
    Within P s (minuteRamp k st x t) := by
  unfold Machine.minuteRamp
  split
  · exact h.setKiln m.kilns k _
  · exact h

theorem Within.minuteHeat (h : Within P s t) (m : MinuteBlocks P) (k : KilnNo) (c : Charge) : Within P s (minuteHeat k c t) :=
  .ite h (.ite (.ite (((h.modifyCharge m.charges _ _).raiseAll _).writeTrace m.trace k _ _) (h.modifyCharge m.charges _ _))
    (h.modifyCharge m.charges _ _))

theorem Within.minuteOvertime (h : Within P s t) (m : MinuteBlocks P) (k : KilnNo) (st : ChargeState) (x : Schedule) :
    Within P s (minuteOvertime k st x t) :=
  .ite ((h.setKiln m.kilns k _).raiseAll _) h

theorem Within.minuteTrigger (h : Within P s t) (m : MinuteBlocks P) (k : KilnNo) (c : Charge) (x : Schedule) :
    Within P s (minuteTrigger k c x t) := by
  unfold Machine.minuteTrigger
  split
  · split
    · exact h.applyChange m.kilns m.charges m.trace k c x _ _ _ fun _ => m.library
    · exact h
  · exact h

theorem Within.minuteChart (h : Within P s t) (m : MinuteBlocks P) (k : KilnNo) (id : Nat) : Within P s (minuteChart k id t) :=
  .ite (.ite ((h.setKiln m.kilns k _).writeTrace m.trace k id _) (h.setKiln m.kilns k _)) h

theorem within_kilnMinute (m : MinuteBlocks P) (s : State) (k : KilnNo) : Within P s (s.kilnMinute k) := by
  unfold State.kilnMinute
  split
  · split
    · refine .ite ?_ (.refl s)
      exact ((((((((Within.refl s).minuteAge m k _).setKiln m.kilns k _).minuteDeviation m k _ _).minuteRamp m k _ _).minuteHeat
        m k _).minuteOvertime m k _ _).minuteTrigger m k _ _).minuteChart m k _
    · exact .refl s
  · exact .refl s

/-! ## References to charges, lots -/

theorem Within.addRef (h : Within P s t) (hc : P .charges = true) (id : Nat) : Within P s (t.addRef id) :=
  h.modifyCharge hc id _

theorem Within.dropRefs (h : Within P s t) (hc : P .charges = true) (cs : List Contributor) : Within P s (t.dropRefs cs) :=
  .foldl (fun t _ => (Within.refl t).modifyCharge hc _ _) cs h

theorem Within.joinLot (h : Within P s t) (hc : P .charges = true) (hl : P .lots = true) (x : Lot) (charge volume : Nat) :
    Within P s (t.joinLot x charge volume) :=
  .ite ((h.withLots hl _).addRef hc _) (h.withLots hl _)

theorem Within.handToLot (h : Within P s t) (hc : P .charges = true) (hl : P .lots = true) (sp th charge volume : Nat) :
    Within P s (t.handToLot sp th charge volume).1 := by
  unfold State.handToLot
  split
  · exact h.joinLot hc hl _ _ _
  · split
    · dsimp only
      exact (h.withLots hl _).joinLot hc hl _ _ _
    · exact h.raiseAll _

/-! ## The label engine -/

theorem Within.beginCycle (h : Within P s t) (hl : P .label = true) (lbsy : Bool) : Within P s (t.beginCycle lbsy) :=
  .ite (h.withLabel hl _) (h.withLabel hl _)

theorem Within.startHead (h : Within P s t) (hl : P .label = true) (lbsy : Bool) : Within P s (t.startHead lbsy) := by
  unfold State.startHead
  split
  · exact h
  · exact (h.withLabel hl _).beginCycle hl lbsy

theorem Within.appendJob (h : Within P s t) (hl : P .label = true) (lbsy : Bool) (j : Job) : Within P s (t.appendJob lbsy j) :=
  .ite ((h.withLabel hl _).startHead hl lbsy) (h.withLabel hl _)

theorem Within.modifyPack (h : Within P s t) (hp : P .packs = true) (id : Nat) (f : Pack → Pack) :
    Within P s (t.modifyPack id f) :=
  h.withPacks hp _

theorem Within.queuePack (h : Within P s t) (hp : P .packs = true) (hl : P .label = true) (lbsy : Bool) (id : Nat) :
    Within P s (t.queuePack lbsy id) :=
  (h.modifyPack hp id _).appendJob hl lbsy _

theorem Within.fillQueue (h : Within P s t) (hp : P .packs = true) (hl : P .label = true) (lbsy : Bool) :
    Within P s (t.fillQueue lbsy) :=
  .foldl (fun t id => (Within.refl t).queuePack hp hl lbsy id) _ h

theorem Within.printerFault (h : Within P s t) (hl : P .label = true) (reason : HaltReason) :
    Within P s (t.printerFault reason) :=
  (h.withLabel hl _).raiseAll _

theorem Within.finishPack (h : Within P s t) (hp : P .packs = true) (j : Job) : Within P s (t.finishPack j) := by
  unfold State.finishPack
  split
  · exact (h.modifyPack hp _ _).withPacks hp _
  · exact h.modifyPack hp _ _

theorem Within.completeJob (h : Within P s t) (hp : P .packs = true) (hl : P .label = true) (lbsy : Bool) (j : Job)
    (rest : List Job) : Within P s (t.completeJob lbsy j rest) := by
  have filled := (((h.finishPack hp j).withLabel hl { t.label with queue := rest }).fillQueue hp hl lbsy).withLabel hl
    (((t.finishPack j).withLabel { t.label with queue := rest }).fillQueue lbsy).label.afterJob
  exact .ite (filled.startHead hl lbsy) filled

theorem Within.verify (h : Within P s t) (hp : P .packs = true) (hl : P .label = true) (lbsy : Bool) (bs : List Byte) :
    Within P s (t.verify lbsy bs) := by
  have read := h.withLabel hl { t.label with lastVerify := some bs }
  unfold State.verify
  dsimp only
  split
  · exact read.printerFault hl _
  · exact .ite (read.completeJob hp hl lbsy _ _) (read.printerFault hl _)

theorem Within.fieldEnd (h : Within P s t) (hl : P .label = true) (lbsy : Bool) (next : LabelEngine) :
    Within P s (t.fieldEnd lbsy next) :=
  .ite (h.withLabel hl _) ((h.withLabel hl _).beginCycle hl lbsy)

theorem Within.cycleEnd (h : Within P s t) (hp : P .packs = true) (hl : P .label = true) (lbsy : Bool) (ld : Byte) :
    Within P s (t.cycleEnd lbsy ld) := by
  have rest := h.withLabel hl { t.label with bus := .rest }
  unfold State.cycleEnd
  split
  · dsimp only
    split
    · exact .ite (rest.fieldEnd hl lbsy _) (.ite ((rest.withLabel hl _).beginCycle hl lbsy) (rest.fieldEnd hl lbsy _))
    · exact .ite ((rest.withLabel hl _).beginCycle hl lbsy) (rest.verify hp hl lbsy _)
  · exact h

theorem within_busyFalls (hl : P .label = true) (s : State) : Within P s s.busyFalls := by
  unfold State.busyFalls
  split
  · exact (Within.refl s).withLabel hl _
  · exact .refl s

theorem within_busyTimeout (hl : P .label = true) (s : State) : Within P s s.busyTimeout := by
  unfold State.busyTimeout
  split
  · exact (Within.refl s).printerFault hl _
  · exact .refl s

/-! ## The pack builder -/

theorem Within.closePack (h : Within P s t) (hp : P .packs = true) (hl : P .label = true) (lbsy : Bool) (id : Nat)
    (cause : CloseCause) : Within P s (t.closePack lbsy id cause) := by
  have closed := ((h.modifyPack hp id fun q => q.closed cause t.clock.stamp).withPacks hp
    { (t.modifyPack id fun q => q.closed cause t.clock.stamp).packs with
      closeList := (t.modifyPack id fun q => q.closed cause t.clock.stamp).packs.closeList ++ [id] }).raiseAll .packClosed
  exact .ite (closed.queuePack hp hl lbsy id) closed

theorem Within.addBoard (h : Within P s t) (hc : P .charges = true) (hp : P .packs = true) (hl : P .label = true)
    (lbsy : Bool) (q : Pack) (b : HandedBoard) : Within P s (t.addBoard lbsy q b) := by
  have added : Within P s (if joinLists q.contributors b.charge then (t.modifyPack q.id fun _ => q.add b).addRef b.charge
      else t.modifyPack q.id fun _ => q.add b) :=
    .ite ((h.modifyPack hp _ _).addRef hc _) (h.modifyPack hp _ _)
  unfold State.addBoard
  dsimp only
  split
  · exact added.closePack hp hl lbsy _ _
  · exact added

theorem Within.openForBoard (h : Within P s t) (hc : P .charges = true) (hp : P .packs = true) (hl : P .label = true)
    (lbsy : Bool) (bin : Nat) (b : HandedBoard) : Within P s (t.openForBoard lbsy bin b).1 := by
  unfold State.openForBoard
  split
  · exact (h.withPacks hp _).addBoard hc hp hl lbsy _ b
  · exact .ite h ((h.withPacks hp _).raiseAll _)

theorem Within.handToBin (h : Within P s t) (hc : P .charges = true) (hp : P .packs = true) (hl : P .label = true)
    (lbsy : Bool) (bin : Nat) (b : HandedBoard) : Within P s (t.handToBin lbsy bin b).1 := by
  unfold State.handToBin
  split
  · split
    · exact h.addBoard hc hp hl lbsy _ b
    · exact (h.closePack hp hl lbsy _ _).openForBoard hc hp hl lbsy bin b
  · exact h.openForBoard hc hp hl lbsy bin b

/-! ## The planer tracker -/

theorem Within.withRun (h : Within P s t) (ht : P .tracker = true) (r : Option Run) : Within P s (t.withRun r) :=
  h.withTracker ht _

theorem Within.settle (h : Within P s t) (hc : P .charges = true) (id : Nat) : Within P s (t.settle id) :=
  h.modifyCharge hc id _

theorem Within.boardLeft (h : Within P s t) (hc : P .charges = true) (id : Nat) : Within P s (t.boardLeft id) :=
  (h.modifyCharge hc id _).settle hc id

theorem Within.endRun (h : Within P s t) (ht : P .tracker = true) (r : Run) (kind : EndKind) : Within P s (t.endRun r kind) :=
  h.withTracker ht _

theorem Within.roomInB (h : Within P s t) (hc : P .charges = true) (ht : P .tracker = true) (n : Run) :
    Within P s (t.roomInB n).1 := by
  unfold State.roomInB
  split
  · unfold State.loseOldest
    split
    · exact h
    · exact ((h.withRun ht _).boardLeft hc _).raiseAll _
  · exact h

theorem Within.overrunA (h : Within P s t) (hc : P .charges = true) (ht : P .tracker = true) (n : Run) :
    Within P s (t.overrunA n).1 := by
  unfold State.overrunA
  split
  · exact h
  · exact ((h.roomInB hc ht n).withRun ht _).raiseAll _

theorem Within.boardArrives (h : Within P s t) (hc : P .charges = true) (ht : P .tracker = true) (n : Run) :
    Within P s (t.boardArrives n) := by
  have room : Within P s (if Config.queueABoards ≤ n.queueA.length then t.overrunA n else (t, n)).1 := by
    split
    · exact h.overrunA hc ht n
    · exact h
  exact (room.withRun ht _).modifyCharge hc _ _

theorem within_eyeRises (hc : P .charges = true) (ht : P .tracker = true) (s : State) : Within P s s.eyeRises := by
  have high := (Within.refl s).withTracker ht { s.tracker with eye := true }
  refine .ite (.refl s) ?_
  dsimp only
  split
  · exact high.boardArrives hc ht _
  · exact (high.withTracker ht _).raiseAll _

theorem Within.feedBack (h : Within P s t) (hc : P .charges = true) (b : Board) : Within P s (t.feedBack b) := by
  unfold State.feedBack
  split
  · exact (h.modifyCharge hc _ _).raiseIf _ _
  · exact h

theorem Within.frameInRun (h : Within P s t) (hc : P .charges = true) (ht : P .tracker = true) (n : Run) (f : MeterFrame) :
    Within P s (t.frameInRun n f) := by
  have metered := (h.withRun ht (some (n.metered (t.param 13) f.isSome))).raiseIf
    ((n.metered (t.param 13) f.isSome).meter != n.meter) .meterState
  unfold State.frameInRun
  dsimp only
  split
  · exact (metered.withRun ht _).raiseAll _
  · exact (((metered.roomInB hc ht _).withRun ht _).feedBack hc _)

theorem within_frameArrives (hc : P .charges = true) (ht : P .tracker = true) (s : State) (f : MeterFrame) :
    Within P s (s.frameArrives f) := by
  have emptied := (Within.refl s).withTracker ht { s.tracker with receiver := [] }
  unfold State.frameArrives
  dsimp only
  split
  · exact emptied.frameInRun hc ht _ f
  · exact emptied

/-- The blocks a graded board may change. -/
structure GradeBlocks (P : Block → Bool) : Prop where
  charges : P .charges = true
  tracker : P .tracker = true
  lots : P .lots = true
  packs : P .packs = true
  label : P .label = true

theorem Within.sortBoard (h : Within P s t) (g : GradeBlocks P) (lbsy : Bool) (n : Run) (b : Board) (x : GradeReport) :
    Within P s (t.sortBoard lbsy n b x).1 := by
  unfold State.sortBoard
  split
  · have handed := h.handToLot g.charges g.lots n.species n.thickness b.charge (t.volumeOf n b x)
    dsimp only
    split <;> exact handed
  · split
    · exact h
    · unfold State.sortToBin
      dsimp only
      split
      · exact h
      · split <;> exact h.handToBin g.charges g.packs g.label lbsy _ _

theorem Within.dispatch (h : Within P s t) (g : GradeBlocks P) (n : Run) (b : Board) (d : Decision) :
    Within P s (t.dispatch n b d) :=
  .ite (((h.withRun g.tracker _).boardLeft g.charges _).endRun g.tracker _ _)
    ((h.withRun g.tracker _).boardLeft g.charges _)

end

end Sys2Proof.Machine
end

section
/-! SUPPORT. Every act of a take within the blocks of its command, and what a take is: one act at one kind code. -/

namespace Sys2Proof.Machine

section
variable {P : Block → Bool}

/-! ## Claims and the clock -/

theorem claimAct_within (hc : P .claims = true) : Act.Within P claimAct := fun p r s => by
  refine .bind fun res => ?_
  dsimp only
  split
  · exact .pure ((Within.refl s).withClaims hc _)
  · exact .ite (within_answer s _) (.error _)

theorem releaseAct_within (hc : P .claims = true) : Act.Within P releaseAct := fun _ _ s =>
  .bind fun _ => .bind fun _ => .pure ((Within.refl s).withClaims hc _)

theorem Within.claimLost {s t : State} (h : Within P s t) (q : Option Port) : Within P s (t.claimLost q) := by
  unfold State.claimLost
  split
  · exact h.raiseAt _ _
  · exact h.raiseAt _ _
  · exact h

theorem seizeAct_within (hc : P .claims = true) : Act.Within P seizeAct := fun _ _ s =>
  .bind fun _ => .pure (((Within.refl s).withClaims hc _).claimLost _)

theorem setClockAct_within (hc : P .clock = true) : Act.Within P setClockAct := fun _ _ s =>
  .bind fun _ => .pure ((Within.refl s).withClock hc _)

/-! ## The library -/

theorem putSpeciesAct_within (hl : P .library = true) : Act.Within P putSpeciesAct := fun _ _ s =>
  .bind fun _ => .bind fun _ => .pure ((Within.refl s).withLibrary hl _)

theorem deleteSpeciesAct_within (hl : P .library = true) : Act.Within P deleteSpeciesAct := fun _ _ s =>
  .bind fun _ => .bind fun _ => .bind fun _ => .bind fun _ => .pure ((Within.refl s).withLibrary hl _)

theorem speciesQueryAct_within : Act.Within P speciesQueryAct := fun _ _ s =>
  .bind fun _ => .bind fun _ => within_answer s _

theorem putScheduleAct_within (hl : P .library = true) : Act.Within P putScheduleAct := fun _ _ s =>
  .bind fun _ => .bind fun _ => .bind fun _ => .pure ((Within.refl s).withLibrary hl _)

theorem deleteScheduleAct_within (hl : P .library = true) : Act.Within P deleteScheduleAct := fun _ _ s =>
  .bind fun _ => .bind fun _ => .bind fun _ => .bind fun _ => .pure ((Within.refl s).withLibrary hl _)

theorem scheduleQueryAct_within : Act.Within P scheduleQueryAct := fun _ _ s =>
  .bind fun _ => .bind fun _ => within_answer s _

theorem putGradeTextAct_within (hl : P .library = true) : Act.Within P putGradeTextAct := fun _ _ s =>
  .bind fun _ => .bind fun _ => .pure (.ite (.refl s) ((Within.refl s).withLibrary hl _))

theorem putLengthBandsAct_within (hl : P .library = true) : Act.Within P putLengthBandsAct := fun _ _ s =>
  .bind fun _ => .bind fun _ => .pure ((Within.refl s).withLibrary hl _)

theorem putParameterAct_within (hl : P .library = true) : Act.Within P putParameterAct := fun _ _ s => by
  refine .bind fun _ => .bind fun x => ?_
  dsimp only
  split <;> exact .pure ((Within.refl s).withLibrary hl _)

theorem parameterQueryAct_within : Act.Within P parameterQueryAct := fun _ _ s =>
  .bind fun _ => .ite (within_answer s _) (.ite (within_answer s _) (within_answer s _))

/-! ## The trace log -/

theorem traceReadAct_within : Act.Within P traceReadAct := fun _ _ s =>
  .bind fun _ => .bind fun _ => within_answer s _

theorem setTraceMarkAct_within (ht : P .trace = true) : Act.Within P setTraceMarkAct := fun _ _ s =>
  .bind fun _ => .pure (((Within.refl s).withTrace ht _).raiseIf _ _)

/-! ## Charges -/

theorem defineChargeAct_within (hc : P .charges = true) : Act.Within P defineChargeAct := fun _ _ s =>
  .bind fun _ => .bind fun _ => .bind fun _ => .pure ((Within.refl s).withCharges hc _)

theorem setSamplesAct_within (hc : P .charges = true) : Act.Within P setSamplesAct := fun _ _ s =>
  .bind fun _ => .bind fun _ => .bind fun _ => .pure ((Within.refl s).setSamples hc _ _)

theorem sampleWeightsAct_within (hc : P .charges = true) : Act.Within P sampleWeightsAct := fun _ _ s =>
  .bind fun _ => .bind fun _ => .bind fun _ => .bind fun _ => .bind fun _ => .pure ((Within.refl s).setSamples hc _ _)

theorem loadAct_within (hc : P .charges = true) (hk : P .kilns = true) (hl : P .library = true) (ht : P .trace = true) :
    Act.Within P loadAct := fun _ _ s =>
  .bind fun _ => .bind fun _ => .bind fun _ => .bind fun _ => .bind fun _ => .bind fun _ => .bind fun _ => .bind fun _ =>
    .pure (((((Within.refl s).modifyCharge hc _ _).setKiln hk _ _).setInUse hl _ _).writeTrace ht _ _ _)

theorem Within.unloadLoaded {s t : State} (h : Within P s t) (hc : P .charges = true) (hk : P .kilns = true)
    (hl : P .library = true) (ht : P .trace = true) (k : KilnNo) (c : Charge) : Within P s (t.unloadLoaded k c) := by
  unfold State.unloadLoaded
  dsimp only
  split
  · exact (((h.modifyCharge hc _ _).setKiln hk _ _).setInUse hl _ _).writeTrace ht _ _ _
  · exact ((h.modifyCharge hc _ _).setKiln hk _ _).writeTrace ht _ _ _

theorem unloadAct_within (hc : P .charges = true) (hk : P .kilns = true) (hl : P .library = true) (ht : P .trace = true) :
    Act.Within P unloadAct := fun _ _ s => by
  refine .bind fun _ => .bind fun _ => .bind fun _ => .bind fun _ => .bind fun _ => .bind fun _ => ?_
  split
  · exact .pure ((Within.refl s).unloadLoaded hc hk hl ht _ _)
  · exact .pure ((((Within.refl s).modifyCharge hc _ _).setKiln hk _ _).writeTrace ht _ _ _)
  · exact .error _

theorem retireChargeAct_within (hc : P .charges = true) : Act.Within P retireChargeAct := fun _ _ s =>
  .bind fun _ => .bind fun _ => .bind fun _ => .bind fun _ => .pure ((Within.refl s).withCharges hc _)

theorem chargeQueryAct_within : Act.Within P chargeQueryAct := fun _ _ s =>
  .bind fun _ => .ite (within_answer s _) (.bind fun _ => within_answer s _)

/-! ## Kilns -/

theorem kilnReportAct_within (hk : P .kilns = true) (ht : P .trace = true) : Act.Within P kilnReportAct := fun _ _ s => by
  refine .bind fun _ => ?_
  dsimp only
  split
  · exact .pure ((Within.refl s).storeReport hk ht _ _ _)
  · exact within_answer s _

/-- A kiln command changes what its rule changes. -/
theorem kilnCommand_within {rule : KilnNo → Charge → Schedule → State → Option State}
    (h : ∀ k c x s t, rule k c x s = some t → Machine.Within P s t) : Act.Within P (kilnCommand rule) := fun _ _ s =>
  .bind fun k => .bind fun _ => .bind fun c => .bind fun x => .bind' fun t ht => .pure (h k c x s t (orRefuse_ok ht))

/-- What a kiln rule answers is a change of the kiln, its charge and the log, from a state that it may prepare. -/
theorem startRule_within (hk : P .kilns = true) (hc : P .charges = true) (ht : P .trace = true) :
    Act.Within P (kilnCommand startRule) :=
  kilnCommand_within fun k c x s t h => by
    unfold startRule at h
    split at h <;> cases h
    exact (Within.refl s).kilnChange hk hc ht k _ _ _ _

theorem holdRule_within (hk : P .kilns = true) (hc : P .charges = true) (ht : P .trace = true) :
    Act.Within P (kilnCommand holdRule) :=
  kilnCommand_within fun k c x s t h => by
    unfold holdRule at h
    split at h <;> cases h
    exact (Within.refl s).kilnChange hk hc ht k _ _ _ _

theorem resumeRule_within (hk : P .kilns = true) (hc : P .charges = true) (ht : P .trace = true) :
    Act.Within P (kilnCommand resumeRule) :=
  kilnCommand_within fun k c x s t h => by
    unfold resumeRule at h
    split at h <;> cases h
    exact (Within.refl s).kilnChange hk hc ht k _ _ _ _

theorem skipStepRule_within (hk : P .kilns = true) (hc : P .charges = true) (hl : P .library = true) (ht : P .trace = true) :
    Act.Within P (kilnCommand skipStepRule) :=
  kilnCommand_within fun k c x s t h => by
    unfold skipStepRule at h
    split at h <;> cases h
    exact (Within.refl s).applyChange hk hc ht k c x _ _ _ fun _ => hl

theorem stopRule_within (hk : P .kilns = true) (hc : P .charges = true) (ht : P .trace = true) :
    Act.Within P (kilnCommand stopRule) :=
  kilnCommand_within fun k c x s t h => by
    unfold stopRule at h
    split at h <;> cases h
    exact (Within.refl s).applyChange hk hc ht k c x _ _ _ nofun

theorem kilnStatusAct_within : Act.Within P kilnStatusAct := fun _ _ s => .bind fun _ => within_answer s _

/-! ## The planer line -/

theorem openRunAct_within (hc : P .charges = true) (ht : P .tracker = true) : Act.Within P openRunAct := fun _ _ s =>
  .bind fun _ => .bind fun _ => .bind fun _ => .bind fun _ => .bind fun _ =>
    .pure (((Within.refl s).withTracker ht _).modifyCharge hc _ _)

theorem addSourceAct_within (hc : P .charges = true) (ht : P .tracker = true) : Act.Within P addSourceAct := fun _ _ s =>
  .bind fun _ => .bind fun _ => .bind fun _ => .bind fun _ => .bind fun _ => .bind fun _ => .bind fun _ =>
    .pure (((Within.refl s).withRun ht _).modifyCharge hc _ _)

theorem advanceSourceAct_within (hc : P .charges = true) (ht : P .tracker = true) : Act.Within P advanceSourceAct :=
  fun _ _ s => by
    refine .bind fun _ => .bind fun _ => ?_
    dsimp only
    split
    · exact .pure (((Within.refl s).withRun ht _).settle hc _)
    · exact .error _

theorem closeRunAct_within (hc : P .charges = true) (ht : P .tracker = true) : Act.Within P closeRunAct := fun _ _ s =>
  .bind fun _ => .bind fun _ => .ite
    (.pure ((Within.foldl (fun t _ => (Within.refl t).modifyCharge hc _ _) _ (.refl s)).endRun ht _ _))
    (.pure (Within.foldl (fun t _ => (Within.refl t).settle hc _) _ ((Within.refl s).withRun ht _)))

theorem abortRunAct_within (hc : P .charges = true) (ht : P .tracker = true) : Act.Within P abortRunAct := fun _ _ s =>
  .bind fun _ => .bind fun _ =>
    .pure ((Within.foldl (fun t _ => (Within.refl t).modifyCharge hc _ _) _ (.refl s)).endRun ht _ _)

theorem boardGradeAct_within (g : GradeBlocks P) (lbsy : Bool) : Act.Within P (boardGradeAct lbsy) := fun _ _ s =>
  .bind fun _ => .bind fun _ => .bind fun _ => .bind fun _ =>
    .pure (((Within.refl s).sortBoard g lbsy _ _ _).dispatch g _ _ _)

theorem putSortEntryAct_within (ht : P .tracker = true) : Act.Within P putSortEntryAct := fun _ _ s =>
  .bind fun _ => .bind fun _ => .bind fun _ => .pure ((Within.refl s).withTracker ht _)

theorem removeSortEntryAct_within (ht : P .tracker = true) : Act.Within P removeSortEntryAct := fun _ _ s =>
  .bind fun _ => .bind fun _ => .bind fun _ => .pure ((Within.refl s).withTracker ht _)

theorem clearSortMapAct_within (ht : P .tracker = true) : Act.Within P clearSortMapAct := fun _ _ s =>
  .bind fun _ => .pure ((Within.refl s).withTracker ht _)

theorem runStatusAct_within (ht : P .tracker = true) : Act.Within P runStatusAct := fun _ _ s => by
  refine .bind fun _ => ?_
  split
  · exact .pure ((Within.refl s).withRun ht _)
  all_goals exact within_answer s _

/-! ## Lots and packs -/

theorem closeLotAct_within (hl : P .lots = true) : Act.Within P closeLotAct := fun _ _ s =>
  .bind fun _ => .bind fun _ => .bind fun _ => .pure ((Within.refl s).withLots hl _)

theorem convertLotAct_within (hc : P .charges = true) (hl : P .lots = true) : Act.Within P convertLotAct := fun _ _ s =>
  .bind fun _ => .bind fun _ => .bind fun _ => .pure ((((Within.refl s).withCharges hc _).dropRefs hc _).withLots hl _)

theorem lotQueryAct_within : Act.Within P lotQueryAct := fun _ _ s =>
  .bind fun _ => .ite (within_answer s _) (.bind fun _ => within_answer s _)

theorem setBinTargetAct_within (hp : P .packs = true) (hl : P .label = true) (lbsy : Bool) :
    Act.Within P (setBinTargetAct lbsy) := fun _ _ s => by
  refine .bind fun _ => .bind fun _ => .pure ?_
  dsimp only
  split
  · exact ((Within.refl s).withPacks hp _).closePack hp hl lbsy _ _
  · exact (Within.refl s).withPacks hp _

theorem closePackAct_within (hp : P .packs = true) (hl : P .label = true) (lbsy : Bool) : Act.Within P (closePackAct lbsy) :=
  fun _ _ s => .bind fun _ => .bind fun _ => .pure ((Within.refl s).closePack hp hl lbsy _ _)

theorem releasePackAct_within (hc : P .charges = true) (hp : P .packs = true) : Act.Within P releasePackAct := fun _ _ s =>
  .bind fun _ => .bind fun _ => .bind fun _ => .bind fun _ => .pure (((Within.refl s).dropRefs hc _).withPacks hp _)

theorem packQueryAct_within : Act.Within P packQueryAct := fun _ _ s => by
  refine .bind fun _ => ?_
  split
  · exact .bind fun _ => within_answer s _
  all_goals exact within_answer s _

/-! ## The printer -/

theorem reprintAct_within (hl : P .label = true) (lbsy : Bool) : Act.Within P (reprintAct lbsy) := fun _ _ s =>
  .bind fun _ => .bind fun _ => .bind fun _ => .bind fun _ => .bind fun _ => .pure ((Within.refl s).appendJob hl lbsy _)

theorem haltPrinterAct_within (hl : P .label = true) : Act.Within P haltPrinterAct := fun _ _ s =>
  .bind fun _ => .bind fun _ => .pure ((Within.refl s).withLabel hl _)

theorem resumed_within (hl : P .label = true) {s t : State} {lbsy : Bool} (h : s.resumed lbsy = some t) : Within P s t := by
  have label (e : LabelEngine) : Within P s (s.withLabel e) := (Within.refl s).withLabel hl e
  unfold State.resumed at h
  split at h
  · split at h <;> cases h
    · exact label _
    · exact (Within.refl s).startHead hl lbsy
  · split at h <;> cases h
    exact label _
  · split at h <;> cases h
    exact label _
  · cases h

theorem resumePrinterAct_within (hl : P .label = true) (lbsy : Bool) : Act.Within P (resumePrinterAct lbsy) := fun _ _ _ =>
  .bind fun _ => .bind' fun _ ht => .pure (resumed_within hl (orRefuse_ok ht))

theorem printerStatusAct_within : Act.Within P printerStatusAct := fun _ _ s => within_answer s _

end

/-! ## Takes -/

/-- The act of a take (section 1.10). -/
def actOf : Instr → Act
  | .claim _ => claimAct | .release _ => releaseAct | .seize _ => seizeAct
  | .putSpecies _ => putSpeciesAct | .deleteSpecies _ => deleteSpeciesAct | .speciesQuery _ => speciesQueryAct
  | .putSchedule _ => putScheduleAct | .deleteSchedule _ => deleteScheduleAct | .scheduleQuery _ => scheduleQueryAct
  | .putGradeText _ => putGradeTextAct | .putLengthBands _ => putLengthBandsAct
  | .defineCharge _ => defineChargeAct | .setSamples _ => setSamplesAct | .load _ => loadAct | .unload _ => unloadAct
  | .retireCharge _ => retireChargeAct | .chargeQuery _ => chargeQueryAct | .sampleWeights _ => sampleWeightsAct
  | .kilnReport _ => kilnReportAct | .start _ => kilnCommand startRule | .hold _ => kilnCommand holdRule
  | .resume _ => kilnCommand resumeRule | .skipStep _ => kilnCommand skipStepRule | .stop _ => kilnCommand stopRule
  | .kilnStatus _ => kilnStatusAct
  | .openRun _ => openRunAct | .addSource _ => addSourceAct | .advanceSource _ => advanceSourceAct
  | .closeRun _ => closeRunAct | .abortRun _ => abortRunAct | .boardGrade _ lbsy => boardGradeAct lbsy
  | .putSortEntry _ => putSortEntryAct | .removeSortEntry _ => removeSortEntryAct | .clearSortMap _ => clearSortMapAct
  | .runStatus _ => runStatusAct
  | .closeLot _ => closeLotAct | .convertLot _ => convertLotAct | .lotQuery _ => lotQueryAct
  | .setBinTarget _ lbsy => setBinTargetAct lbsy | .closePack _ lbsy => closePackAct lbsy
  | .releasePack _ => releasePackAct | .packQuery _ => packQueryAct
  | .reprint _ lbsy => reprintAct lbsy | .haltPrinter _ => haltPrinterAct | .resumePrinter _ lbsy => resumePrinterAct lbsy
  | .printerStatus _ => printerStatusAct
  | .traceRead _ => traceReadAct | .setTraceMark _ => setTraceMarkAct | .setClock _ => setClockAct
  | .putParameter _ => putParameterAct | .parameterQuery _ => parameterQueryAct
  | _ => fun _ _ s => .ok (s, [])

/-- A take runs its act on the request of its kind code. -/
theorem exec_take {c : Instr} {p : Port} {code : Byte} (h : takenBy c = some (p, code)) (s : State) :
    exec c s = takeRequest code (actOf c) p s := by
  cases c <;> cases h <;> rfl

/-- The act of every take stays within the blocks of its command. -/
theorem actOf_within {c : Instr} {x : Port × Byte} (h : takenBy c = some x) : Act.Within (mayChange c) (actOf c) := by
  cases c with
  | claim => exact claimAct_within rfl
  | release => exact releaseAct_within rfl
  | seize => exact seizeAct_within rfl
  | putSpecies => exact putSpeciesAct_within rfl
  | deleteSpecies => exact deleteSpeciesAct_within rfl
  | speciesQuery => exact speciesQueryAct_within
  | putSchedule => exact putScheduleAct_within rfl
  | deleteSchedule => exact deleteScheduleAct_within rfl
  | scheduleQuery => exact scheduleQueryAct_within
  | putGradeText => exact putGradeTextAct_within rfl
  | putLengthBands => exact putLengthBandsAct_within rfl
  | defineCharge => exact defineChargeAct_within rfl
  | setSamples => exact setSamplesAct_within rfl
  | load => exact loadAct_within rfl rfl rfl rfl
  | unload => exact unloadAct_within rfl rfl rfl rfl
  | retireCharge => exact retireChargeAct_within rfl
  | chargeQuery => exact chargeQueryAct_within
  | sampleWeights => exact sampleWeightsAct_within rfl
  | kilnReport => exact kilnReportAct_within rfl rfl
  | start => exact startRule_within rfl rfl rfl
  | hold => exact holdRule_within rfl rfl rfl
  | resume => exact resumeRule_within rfl rfl rfl
  | skipStep => exact skipStepRule_within rfl rfl rfl rfl
  | stop => exact stopRule_within rfl rfl rfl
  | kilnStatus => exact kilnStatusAct_within
  | openRun => exact openRunAct_within rfl rfl
  | addSource => exact addSourceAct_within rfl rfl
  | advanceSource => exact advanceSourceAct_within rfl rfl
  | closeRun => exact closeRunAct_within rfl rfl
  | abortRun => exact abortRunAct_within rfl rfl
  | boardGrade => exact boardGradeAct_within ⟨rfl, rfl, rfl, rfl, rfl⟩ _
  | putSortEntry => exact putSortEntryAct_within rfl
  | removeSortEntry => exact removeSortEntryAct_within rfl
  | clearSortMap => exact clearSortMapAct_within rfl
  | runStatus => exact runStatusAct_within rfl
  | closeLot => exact closeLotAct_within rfl
  | convertLot => exact convertLotAct_within rfl rfl
  | lotQuery => exact lotQueryAct_within
  | setBinTarget => exact setBinTargetAct_within rfl rfl _
  | closePack => exact closePackAct_within rfl rfl _
  | releasePack => exact releasePackAct_within rfl rfl
  | packQuery => exact packQueryAct_within
  | reprint => exact reprintAct_within rfl _
  | haltPrinter => exact haltPrinterAct_within rfl
  | resumePrinter => exact resumePrinterAct_within rfl _
  | printerStatus => exact printerStatusAct_within
  | traceRead => exact traceReadAct_within
  | setTraceMark => exact setTraceMarkAct_within rfl
  | setClock => exact setClockAct_within rfl
  | putParameter => exact putParameterAct_within rfl
  | parameterQuery => exact parameterQueryAct_within
  | _ => cases h

end Sys2Proof.Machine
end

section
/-! SUPPORT. What a command about one port may do to its own unit and to the others, what an event may do, and what the
commands that reset every port unit do. -/

namespace Sys2Proof.Machine

/-! ## One port unit -/

/-- The cause sets of a unit hold no bit above cause 19 (R14, R21). -/
def PortUnit.CausesOk (u : PortUnit) : Prop := u.pending &&& causeBits = u.pending ∧ u.enabled &&& causeBits = u.enabled

/-- A unit stages an answer only behind one in its buffer (R6). -/
def PortUnit.SlotOk (u : PortUnit) : Prop := u.slot.hasStaged = true → u.buffer.isSome = true

/-- What every command about a port keeps of its unit; where it acknowledges nothing, what was pending stays pending. -/
structure PortUnit.Kept (acked : Bool) (u v : PortUnit) : Prop where
  pending : acked = false → u.pending &&& v.pending = u.pending
  causes : u.CausesOk → v.CausesOk
  slot : u.SlotOk → v.SlotOk

theorem and_or_self {w : Nat} (a b : BitVec w) : a &&& (a ||| b) = a := by
  ext i hi
  cases h : a[i] <;> simp [h]

theorem and_and_of_eq {w : Nat} {a b c : BitVec w} (h : a &&& b = a) (h' : b &&& c = b) : a &&& c = a := by
  rw [← h, BitVec.and_assoc, h']

theorem and_of_part {w : Nat} {a b c : BitVec w} (h : b &&& c = b) : (a &&& b) &&& c = a &&& b := by
  rw [BitVec.and_assoc, h]

theorem or_within {w : Nat} {a b c : BitVec w} (ha : a &&& c = a) (hb : b &&& c = b) : (a ||| b) &&& c = a ||| b := by
  rw [BitVec.and_comm, BitVec.and_or_distrib_left, BitVec.and_comm c, BitVec.and_comm c, ha, hb]

section
variable {acked : Bool} {u v w : PortUnit}

/-- A unit whose pending set, enable set, slot and buffer are as they were. -/
theorem PortUnit.Kept.of_eq (hp : v.pending = u.pending) (he : v.enabled = u.enabled) (hs : v.slot = u.slot)
    (hb : v.buffer = u.buffer) : u.Kept acked v :=
  ⟨fun _ => by rw [hp, BitVec.and_self], fun h => by unfold PortUnit.CausesOk; rw [hp, he]; exact h,
    fun h => by unfold PortUnit.SlotOk; rw [hs, hb]; exact h⟩

/-- A unit whose cause sets are as they were, and whose slot stages nothing. -/
theorem PortUnit.Kept.of_unstaged (hp : v.pending = u.pending) (he : v.enabled = u.enabled) (hs : v.slot.hasStaged = false) :
    u.Kept acked v :=
  ⟨fun _ => by rw [hp, BitVec.and_self], fun h => by unfold PortUnit.CausesOk; rw [hp, he]; exact h,
    fun _ h => by rw [hs] at h; cases h⟩

theorem PortUnit.Kept.trans (h : u.Kept acked v) (h' : v.Kept acked w) : u.Kept acked w :=
  ⟨fun ha => and_and_of_eq (h.pending ha) (h'.pending ha), h'.causes ∘ h.causes, h'.slot ∘ h.slot⟩

theorem PortUnit.Alerted.kept (h : u.Alerted v) : u.Kept acked v := by
  obtain ⟨m, rfl⟩ := h
  exact ⟨fun _ => and_or_self _ _, fun ⟨hp, he⟩ => ⟨or_within hp (and_of_part he), he⟩, id⟩

end

/-! ## A command about one port -/

/-- From `s` to `t` no block outside `P` has changed, the unit of port `p` keeps what every command about it keeps, and the
other units have been alerted at most. -/
structure AtPort (acked : Bool) (P : Block → Bool) (p : Port) (s t : State) : Prop where
  blocks : ∀ b, P b = false → SameBlock s t b
  own : (s.port p).Kept acked (t.port p)
  others : ∀ q, q ≠ p → (s.port q).Alerted (t.port q)

section
variable {acked : Bool} {P : Block → Bool} {p : Port} {s t u : State}

theorem Within.atPort (h : Within P s t) : AtPort acked P p s t := ⟨h.blocks, (h.alerts p).kept, fun q _ => h.alerts q⟩

theorem AtPort.trans (h : AtPort acked P p s t) (h' : AtPort acked P p t u) : AtPort acked P p s u :=
  ⟨fun b hb => (h.blocks b hb).trans (h'.blocks b hb), h.own.trans h'.own, fun q hq => (h.others q hq).trans (h'.others q hq)⟩

theorem AtPort.refl (s : State) : AtPort acked P p s s := (Within.refl s).atPort

theorem atPort_setPort {v : PortUnit} (h : (s.port p).Kept acked v) : AtPort acked P p s (s.setPort p v) :=
  ⟨fun b _ => by cases b <;> rfl, by rw [State.setPort_port_same]; exact h,
    fun q hq => by rw [State.setPort_port_ne _ _ _ _ hq]; exact .refl _⟩

theorem AtPort.handBack (h : AtPort acked P p s t) (r : Request) (v : Verdict) : AtPort acked P p s (t.handBack p r v) :=
  h.trans (atPort_setPort (.of_unstaged rfl rfl rfl))

/-- A take stays within its act's blocks. -/
theorem takeRequest_atPort {code : Byte} {act : Act} (ha : Act.Within P act) (h : takeRequest code act p s = .next t) :
    AtPort acked P p s t := by
  rcases takeRequest_cases h with ⟨e, _⟩ | ⟨r, u, b, _, hu, e⟩ | ⟨r, x, _, _, e⟩ <;> cases e
  · exact .refl s
  · exact (ha p r s _ hu).atPort.handBack r _
  · exact (AtPort.refl s).handBack r _

/-! ## Transfers -/

/-- What the end of a complete frame does at port `p` keeps what `AtPort` says. -/
def ActAtPort (acked : Bool) (P : Block → Bool) (p : Port) (act : OpenFrame → State → State × LastResult) : Prop :=
  ∀ f s, AtPort acked P p s (act f s).1

theorem closeFrame_atPort (s : State) (f : OpenFrame) : AtPort acked P p s (s.closeFrame p f) :=
  atPort_setPort (.of_eq rfl rfl rfl rfl)

theorem endFrame_atPort {x : Transfer} (h : ActAtPort acked P p x.act) (s : State) (f : OpenFrame) :
    AtPort acked P p s (s.endFrame x p f) := by
  have closed := closeFrame_atPort (acked := acked) (P := P) (p := p) s f
  unfold State.endFrame
  split
  · exact closed
  · split
    · exact (closed.trans (h f _)).trans (atPort_setPort (.of_eq rfl rfl rfl rfl))
    · exact closed.trans (atPort_setPort (.of_eq rfl rfl rfl rfl))

/-- An event of a frame. -/
theorem transfer_atPort {x : Transfer} (h : ActAtPort acked P p x.act) {e : FrameEvent}
    (ht : transfer x p e s = .next t) : AtPort acked P p s t := by
  have frame {v : PortUnit} (hp : v.pending = (s.port p).pending) (he : v.enabled = (s.port p).enabled)
      (hs : v.slot = (s.port p).slot) (hb : v.buffer = (s.port p).buffer) : AtPort acked P p s (s.setPort p v) :=
    atPort_setPort (.of_eq hp he hs hb)
  unfold transfer at ht
  cases ht
  split
  · cases e <;> exact frame rfl rfl rfl rfl
  · cases e with
    | rises bs => exact endFrame_atPort h s _
    | falls => exact frame rfl rfl rfl rfl
    | bytes bs => exact frame rfl rfl rfl rfl
    | empty => exact frame rfl rfl rfl rfl

theorem idle_atPort (r : LastResult) : ActAtPort acked P p fun _ t => (t, r) := fun _ s => .refl s

theorem accept_atPort (s : State) (r : Request) : AtPort acked P p s (s.accept p r) := by
  have posted : AtPort acked P p s (s.setPort p { s.port p with slot := .posted r, ticket := (s.port p).ticket + 1 }) :=
    atPort_setPort (.of_unstaged rfl rfl rfl)
  unfold State.accept
  dsimp only
  split
  · exact posted
  · exact posted.handBack r _

theorem postAct_atPort : ActAtPort acked P p (postAct p) := fun f s => by
  unfold postAct
  split
  · exact .refl s
  · split
    · exact accept_atPort s _
    · exact .refl s

theorem withdrawAct_atPort : ActAtPort acked P p (withdrawAct p) := fun _ s => by
  unfold withdrawAct
  split
  · exact atPort_setPort (.of_unstaged rfl rfl rfl)
  all_goals exact .refl s

theorem enterBuffer_kept (u : PortUnit) (a : Answer) :
    u.Kept acked ({ u with buffer := some a, slot := .empty }.raise .answerReady) :=
  PortUnit.Kept.trans (v := { u with buffer := some a, slot := .empty }) (.of_unstaged rfl rfl rfl)
    (PortUnit.alerted_raise _ _).kept

theorem enterBuffer_atPort (s : State) (a : Answer) : AtPort acked P p s (s.enterBuffer p a) :=
  atPort_setPort (enterBuffer_kept _ a)

theorem fetchAct_atPort : ActAtPort acked P p (fetchAct p) := fun _ s => by
  unfold fetchAct
  split
  · exact .refl s
  · split
    · exact enterBuffer_atPort s _
    · rename_i h
      refine atPort_setPort (.of_unstaged rfl rfl ?_)
      cases hs : (s.port p).slot with
      | doneWaiting a => exact absurd hs (h a)
      | _ => rfl

theorem raiseOthers_port (s : State) (p q : Port) (c : Cause) :
    (s.raiseOthers p c).port q = if q = p then s.port q else (s.port q).raise c := by
  simp [State.raiseOthers, State.port]

theorem raiseOthers_atPort (s : State) (c : Cause) : AtPort acked P p s (s.raiseOthers p c) :=
  ⟨fun b _ => by cases b <;> rfl, by simpa [raiseOthers_port] using (PortUnit.Alerted.refl _).kept,
    fun q hq => by simpa [raiseOthers_port, hq] using PortUnit.alerted_raise _ _⟩

theorem setNotes_atPort (s : State) (v : BitVec 4) : AtPort acked P p s (s.setNotes p v) := by
  have noted : AtPort acked P p s (s.setPort p { s.port p with notes := v }) := atPort_setPort (.of_eq rfl rfl rfl rfl)
  unfold State.setNotes
  dsimp only
  split
  · exact noted
  · exact noted.trans (raiseOthers_atPort _ _)

theorem noteAct_atPort : ActAtPort acked P p (noteAct p) := fun _ s => setNotes_atPort s _

theorem ackAct_atPort : ActAtPort true P p (ackAct p) := fun _ s =>
  atPort_setPort ⟨nofun, fun ⟨hp, he⟩ => ⟨by rw [BitVec.and_comm (s.port p).pending]; exact and_of_part hp, he⟩, id⟩

theorem maskAct_atPort : ActAtPort acked P p (maskAct p) := fun _ _ =>
  atPort_setPort ⟨fun _ => BitVec.and_self, fun ⟨hp, _⟩ => ⟨hp, and_of_part BitVec.and_self⟩, id⟩

theorem defaultEnable_within (p : Port) : defaultEnable p &&& causeBits = defaultEnable p := by cases p <;> decide

theorem portResetAct_atPort (hc : P .claims = true) : ActAtPort true P p (portResetAct p) := fun _ s => by
  have reset : AtPort true P p s (s.setPort p
      { s.port p with slot := .empty, buffer := none, pending := 0, enabled := defaultEnable p, errors := 0 }) :=
    atPort_setPort ⟨nofun, fun _ => ⟨by simp, defaultEnable_within p⟩, nofun⟩
  exact (reset.trans (setNotes_atPort _ 0)).trans ((Within.refl _).withClaims hc _).atPort

/-! ## Arrivals and events -/

theorem arrive_atPort (s : State) (x : BitVec 32) (a : Answer) : AtPort acked P p s (s.arrive p x a) := by
  unfold State.arrive
  split
  · split
    · split
      · exact enterBuffer_atPort s a
      · rename_i hb
        refine atPort_setPort ⟨fun _ => BitVec.and_self, id, fun _ _ => ?_⟩
        simp [hb]
    · exact .refl s
  · exact .refl s

end

/-- The transfers that remove pending causes (R16, R18). -/
def removesCauses : Instr → Bool
  | .ack _ _ | .portReset _ _ => true
  | _ => false

/-- Everything a command about a port may do. -/
theorem exec_atPort {c : Instr} {p : Port} {s t : State} (hp : portOf c = some p) (h : exec c s = .next t) :
    AtPort (removesCauses c) (mayChange c) p s t := by
  cases ht : takenBy c with
  | some x =>
    have e : x.1 = p := by
      cases c <;> cases ht <;> exact Option.some.inj hp
    subst e
    rw [exec_take ht] at h
    exact takeRequest_atPort (actOf_within ht) h
  | none =>
    cases c with
    | post => cases hp; exact transfer_atPort postAct_atPort h
    | withdraw => cases hp; exact transfer_atPort withdrawAct_atPort h
    | fetch => cases hp; exact transfer_atPort fetchAct_atPort h
    | peek => cases hp; exact transfer_atPort (idle_atPort _) h
    | note => cases hp; exact transfer_atPort noteAct_atPort h
    | ack => cases hp; exact transfer_atPort (acked := true) ackAct_atPort h
    | mask => cases hp; exact transfer_atPort maskAct_atPort h
    | portReset _ e =>
      cases hp
      exact transfer_atPort (acked := true) (portResetAct_atPort (P := mayChange (.portReset p e)) rfl) h
    | unknownTransfer =>
      cases hp
      change execUnknownTransfer _ _ _ _ = _ at h
      unfold execUnknownTransfer at h
      split at h
      · exact transfer_atPort (idle_atPort _) h
      · cases h; exact .refl s
    | answerArrival p which =>
      cases hp
      cases h
      split
      · dsimp only
        split
        · exact .refl s
        · have landed : AtPort (removesCauses (.answerArrival p which)) (mayChange (.answerArrival p which)) p s
              (s.setPort p { s.port p with inFlight := (s.port p).inFlight.eraseIdx which }) :=
            atPort_setPort (.of_eq rfl rfl rfl rfl)
          exact landed.trans (arrive_atPort _ _ _)
      · exact .refl s
    | _ => cases hp <;> cases ht

/-- Everything a command about no port may do, where it does not reset every port unit. -/
theorem exec_within {c : Instr} {s t : State} (hp : portOf c = none) (hr : resetsPorts c = false)
    (h : exec c s = .next t) : Within (mayChange c) s t := by
  cases c with
  | kilnMinuteExpiry => cases h; exact .ite (within_kilnMinute ⟨rfl, rfl, rfl, rfl⟩ s _) (.refl s)
  | millClockMinute => cases h; exact (Within.refl s).withClock rfl _
  | eyeEdge => cases h; exact .ite (within_eyeRises rfl rfl s) (.refl s)
  | meterFrame => cases h; exact .ite (.ite (within_frameArrives rfl rfl s _) (.refl s)) (.refl s)
  | meterIdleTimeout => cases h; exact .ite (.ite (.refl s) (within_frameArrives rfl rfl s _)) (.refl s)
  | busCycleComplete => cases h; exact .ite ((Within.refl s).cycleEnd rfl rfl _ _) (.refl s)
  | lbsyFall => cases h; exact .ite (within_busyFalls rfl s) (.refl s)
  | printerTimeout => cases h; exact .ite (within_busyTimeout rfl s) (.refl s)
  | meterByteReceived => cases h; exact .ite ((Within.refl s).withTracker rfl _) (.refl s)
  | eyeFilteredFall => cases h; exact .ite ((Within.refl s).withTracker rfl _) (.refl s)
  | backupMonitorTrip =>
    cases h
    exact .ite ((Within.refl s).withRetention rfl _) (.refl s)
  | restart | powerOnReset | coldStart | warmStart | mainPowerFail => cases hr
  | _ => cases hp

end Sys2Proof.Machine
end

section
/-! SUPPORT. The commands that reset every port unit: the blocks they change, and what they leave of each unit. -/

namespace Sys2Proof.Machine

/-- The blocks that a RESTART and a warm start rebuild. -/
def rebuilt : Block → Bool
  | .charges | .kilns | .tracker | .packs | .label | .trace => true
  | _ => false

section
variable {s t : State}

theorem Within.restartCharges (h : Within rebuilt s t) (why : HoldReason) : Within rebuilt s (t.restartCharges why) :=
  (h.withCharges rfl _).withKilns rfl _

theorem Within.restartRecords (h : Within rebuilt s t) (l : List (KilnNo × Nat)) : Within rebuilt s (t.restartRecords l) :=
  .foldl (fun t _ => (Within.refl t).writeTrace rfl _ _ _) l h

theorem within_restartBlocks (s : State) (why : HoldReason) (eye lbsy : Bool) :
    Within rebuilt s (s.restartBlocks why eye lbsy) :=
  (((((((Within.refl s).restartCharges why).withTracker rfl _).withPacks rfl _).withPacks rfl _).withLabel
    rfl _).fillQueue rfl rfl lbsy).restartRecords _

end

/-! ## Equations -/

variable {s t : State}

/-- Where no port-independent event happens, an event command answers the state itself. -/
theorem event_idle {f : State → State} (h : s.retention.phase ≠ .running) : event f s = .next s := by
  simp [event, h]

theorem offered_eq_some {p : Port} {code : Byte} {r : Request} :
    s.offered p code = some r ↔ (s.port p).slot = .posted r ∧ r.kind = code := by
  unfold State.offered
  cases (s.port p).slot with
  | posted x =>
    dsimp only
    split
    · exact ⟨fun h => by cases h; exact ⟨rfl, ‹_›⟩, fun ⟨h, _⟩ => by cases h; rfl⟩
    · exact ⟨nofun, fun ⟨h, hk⟩ => by cases h; contradiction⟩
  | _ => exact ⟨nofun, fun h => nomatch h.1⟩

theorem exec_restart_idle {p : Port} {eye lbsy : Bool} (h : ∀ r, ¬Offers s p 0x92 r) :
    exec (.restart p eye lbsy) s = .next s := by
  change execRestart p eye lbsy s = _
  unfold execRestart
  by_cases hp : s.retention.phase = .running
  · cases ho : s.offered p 0x92 with
    | none => simp only [event_running s hp, ho]
    | some r => exact absurd ⟨hp, offered_eq_some.1 ho⟩ (h r)
  · exact event_idle hp

theorem exec_restart_taken {p : Port} {eye lbsy : Bool} {r : Request} (h : Offers s p 0x92 r) :
    exec (.restart p eye lbsy) s = .next (s.restarted p r eye lbsy) := by
  change execRestart p eye lbsy s = _
  unfold execRestart
  have ho : s.offered p 0x92 = some r := offered_eq_some.2 h.2
  simp only [event_running s h.1, ho]

/-- A RESTART that is POSTED is taken; any other changes nothing. -/
theorem exec_restart_cases {p : Port} {eye lbsy : Bool} (h : exec (.restart p eye lbsy) s = .next t) :
    t = s ∨ ∃ r, t = s.restarted p r eye lbsy := by
  by_cases ho : ∃ r, Offers s p 0x92 r
  · obtain ⟨r, ho⟩ := ho
    rw [exec_restart_taken ho] at h
    cases h
    exact .inr ⟨r, rfl⟩
  · rw [exec_restart_idle (not_exists.1 ho)] at h
    cases h
    exact .inl rfl

theorem exec_powerOnReset (s : State) : exec .powerOnReset s = .next (s.quiet.withPhase .starting) := rfl

/-- A cold start completes, or changes nothing. -/
theorem exec_coldStart_eq (eye cut : Bool) (s : State) :
    exec (.coldStart eye cut) s = .next s ∨ exec (.coldStart eye cut) s = .next (s.coldStarted eye) := by
  by_cases h : s.retention.phase = .starting ∧ s.retention.marker = false ∧ cut = false
  · exact .inr (congrArg _ (if_pos h))
  · exact .inl (congrArg _ (if_neg h))

theorem exec_warmStart_idle {eye lbsy : Bool} {e : StartEnd} {s : State}
    (h : ¬(s.retention.phase = .starting ∧ s.retention.marker = true)) : exec (.warmStart eye lbsy e) s = .next s :=
  congrArg _ (if_neg h)

theorem exec_warmStart_completes {eye lbsy : Bool} {s : State}
    (h : s.retention.phase = .starting ∧ s.retention.marker = true) :
    exec (.warmStart eye lbsy .completes) s = .next (s.warmStarted eye lbsy) :=
  congrArg _ (if_pos h)

theorem exec_warmStart_cut {eye lbsy charges packs : Bool} {n : Nat} {s : State}
    (h : s.retention.phase = .starting ∧ s.retention.marker = true) :
    exec (.warmStart eye lbsy (.cut charges packs n)) s = .next (s.warmCut charges packs n) :=
  congrArg _ (if_pos h)

/-- A warm start completes, is cut, or changes nothing. -/
theorem exec_warmStart_cases {eye lbsy : Bool} {e : StartEnd} (h : exec (.warmStart eye lbsy e) s = .next t) :
    t = s ∨ t = s.warmStarted eye lbsy ∨ ∃ charges packs n, t = s.warmCut charges packs n := by
  by_cases hs : s.retention.phase = .starting ∧ s.retention.marker = true
  · cases e with
    | completes => rw [exec_warmStart_completes hs] at h; cases h; exact .inr (.inl rfl)
    | cut charges packs n => rw [exec_warmStart_cut hs] at h; cases h; exact .inr (.inr ⟨charges, packs, n, rfl⟩)
  · rw [exec_warmStart_idle hs] at h; cases h; exact .inl rfl

theorem exec_mainPowerFail_off {low : Bool} (h : s.retention.phase = .off) : exec (.mainPowerFail low) s = .next s :=
  congrArg _ (if_pos h)

theorem exec_mainPowerFail_on {low : Bool} (h : s.retention.phase ≠ .off) :
    exec (.mainPowerFail low) s = .next (s.quiet.withRetention
      { s.retention with phase := .off, marker := s.retention.marker && !low }) :=
  congrArg _ (if_neg h)

theorem quiet_port (s : State) (q : Port) : s.quiet.port q = (s.port q).cutFrame := by
  simp [State.quiet, State.port]

/-- A cut warm start leaves the port units, and every block that a start does not rebuild. -/
theorem warmCut_frame (s : State) (charges packs : Bool) (n : Nat) :
    (s.warmCut charges packs n).ports = s.ports ∧
    ∀ b, rebuilt b = false → SameBlock s (s.warmCut charges packs n) b := by
  constructor
  · cases charges <;> cases packs <;> rfl
  · intro b hb
    have restarted : Within rebuilt s
        ((s.restartCharges .power).restartRecords ((s.restartCharges .power).occupied.take n)) :=
      ((Within.refl s).restartCharges _).restartRecords _
    have recorded : SameBlock s (((s.restartCharges .power).restartRecords
        ((s.restartCharges .power).occupied.take n)).withPorts s.ports) b :=
      (restarted.blocks b hb).trans (by cases b <;> rfl)
    cases charges <;> cases packs
    · exact .refl s b
    · cases b with
      | packs => cases hb
      | _ => rfl
    · exact recorded
    · refine recorded.trans ?_
      cases b with
      | packs => cases hb
      | _ => rfl

/-! ## Blocks under every command -/

theorem reset_blocks {c : Instr} (hr : resetsPorts c = true) (h : exec c s = .next t) (b : Block)
    (hb : mayChange c b = false) : SameBlock s t b := by
  cases c with
  | restart p eye lbsy =>
    rcases exec_restart_cases h with rfl | ⟨r, rfl⟩
    · exact .refl _ b
    · cases b with
      | library | lots | clock | retention | queue =>
        refine SameBlock.trans ?_ ((within_restartBlocks _ _ _ _).blocks _ ?_) <;> rfl
      | _ => cases hb
  | powerOnReset =>
    cases h
    cases b with
    | label | retention => cases hb
    | _ => rfl
  | coldStart eye cut =>
    rcases exec_coldStart_eq eye cut s with e | e <;> rw [e] at h <;> cases h
    · exact .refl s b
    · cases b with
      | queue => rfl
      | _ => cases hb
  | warmStart eye lbsy e =>
    rcases exec_warmStart_cases h with rfl | rfl | ⟨charges, packs, n, rfl⟩
    · exact .refl _ b
    · cases b with
      | library | lots | clock | queue =>
        refine SameBlock.trans ?_ ((within_restartBlocks _ _ _ _).blocks _ ?_) <;> rfl
      | _ => cases hb
    · cases b with
      | library | lots | clock | queue => exact (warmCut_frame s charges packs n).2 _ rfl
      | _ => cases hb
  | mainPowerFail low =>
    by_cases hp : s.retention.phase = .off
    · rw [exec_mainPowerFail_off hp] at h
      cases h
      exact .refl s b
    · rw [exec_mainPowerFail_on hp] at h
      cases h
      cases b with
      | label | retention => cases hb
      | _ => rfl
  | _ => cases hr

/-- Every command leaves the blocks that its chapter does not name. -/
theorem exec_blocks {c : Instr} (h : exec c s = .next t) (b : Block) (hb : mayChange c b = false) : SameBlock s t b := by
  cases hr : resetsPorts c with
  | true => exact reset_blocks hr h b hb
  | false =>
    cases hp : portOf c with
    | some p => exact (exec_atPort hp h).blocks b hb
    | none => exact (exec_within hp hr h).blocks b hb

end Sys2Proof.Machine

/-- Settles O55: each block by what its commands may change. -/
theorem onlyTheNamedCommandsChangeABlock : Obligations.OnlyTheNamedCommandsChangeABlock := by
  unfold Obligations.OnlyTheNamedCommandsChangeABlock
  intro c s t h
  have keeps := Sys2Proof.Machine.exec_blocks h
  exact ⟨keeps .claims, keeps .library, keeps .charges, keeps .kilns, keeps .tracker, keeps .lots, keeps .packs, keeps .label,
    keeps .trace, keeps .clock, keeps .retention⟩

end

section
/-! SUPPORT. The port units under every command, and the invariants of ports and claims. -/

namespace Sys2Proof.Machine

variable {s t : State}

/-! ## Units apart and pending causes -/

/-- Where a command resets no port and is not about port `q`, the unit of `q` is alerted at most. -/
theorem exec_alerts {c : Instr} {q : Port} (h : exec c s = .next t) (hr : resetsPorts c = false) (hq : portOf c ≠ some q) :
    (s.port q).Alerted (t.port q) := by
  cases hp : portOf c with
  | some p => exact (exec_atPort hp h).others q fun e => hq (by rw [hp, e])
  | none => exact (exec_within hp hr h).alerts q

/-- Where a command resets no port, every unit keeps what a command about it keeps. -/
theorem exec_kept {c : Instr} {q : Port} {acked : Bool} (h : exec c s = .next t) (hr : resetsPorts c = false)
    (ha : portOf c = some q → removesCauses c = acked) : (s.port q).Kept acked (t.port q) := by
  by_cases hq : portOf c = some q
  · rw [← ha hq]
    exact (exec_atPort hq h).own
  · exact (exec_alerts h hr hq).kept

/-! ## The invariants of one unit -/

/-- An invariant of a port unit: what every command about it keeps of it, and what a RESTART and a start leave it in. -/
structure UnitInv (R : PortUnit → Prop) : Prop where
  kept : ∀ {u v : PortUnit}, u.Kept true v → R u → R v
  restarted : ∀ (p : Port) (u : PortUnit), R (u.restarted p)
  begun : ∀ (u : Ports) (q : Port), R (u.begun.get q)

theorem PortUnit.Kept.weaken {acked : Bool} {u v : PortUnit} (h : u.Kept acked v) : u.Kept true v :=
  ⟨nofun, h.causes, h.slot⟩

theorem cutFrame_kept (u : PortUnit) : u.Kept true u.cutFrame := .of_eq rfl rfl rfl rfl

theorem restartedSet_within (p : Port) : (restartedSet &&& defaultEnable p) &&& causeBits = restartedSet &&& defaultEnable p :=
  and_of_part (defaultEnable_within p)

theorem begun_port (u : Ports) (q : Port) :
    u.begun.get q = { PortUnit.started q with frame := (u.get q).cutFrame.frame, sent := (u.get q).sent } := by
  simp [Ports.begun]

theorem causesOk_unitInv : UnitInv PortUnit.CausesOk :=
  ⟨fun h => h.causes, fun p _ => ⟨restartedSet_within p, defaultEnable_within p⟩,
    fun u q => by rw [begun_port]; exact ⟨restartedSet_within q, defaultEnable_within q⟩⟩

theorem slotOk_unitInv : UnitInv PortUnit.SlotOk :=
  ⟨fun h => h.slot, fun _ _ => nofun, fun u q => by rw [begun_port]; exact nofun⟩

/-- The state of a RESTART before the other blocks are rebuilt (R19, R33, R200). -/
def State.restartPorts (s : State) (p : Port) (r : Request) : State :=
  ((s.withPorts (s.ports.map PortUnit.restarted)).withClaims (s.claims.map ClaimRecord.restarted)).enterBuffer p
    (restartAnswer r)

theorem restarted_eq (s : State) (p : Port) (r : Request) (eye lbsy : Bool) :
    s.restarted p r eye lbsy = (s.restartPorts p r).restartBlocks .restart eye lbsy := rfl

/-- The units of a RESTART: each is reset, and the DONE answer enters the buffer of the port that asked (R19). -/
theorem restartPorts_port (s : State) (p : Port) (r : Request) (q : Port) :
    (s.restartPorts p r).port q = if q = p then
        ({ (s.port q).restarted q with buffer := some (restartAnswer r), slot := .empty }.raise .answerReady)
      else (s.port q).restarted q := by
  have start : ((s.withPorts (s.ports.map PortUnit.restarted)).withClaims (s.claims.map ClaimRecord.restarted)).port q =
      (s.port q).restarted q := by
    simp [State.port]
  by_cases hq : q = p
  · subst hq
    rw [if_pos rfl, ← start]
    exact State.setPort_port_same _ _ _
  · rw [if_neg hq, ← start]
    exact State.setPort_port_ne _ _ _ _ hq

/-- A reset of every port keeps an invariant of the units. -/
theorem reset_unitInv {R : PortUnit → Prop} (hR : UnitInv R) {c : Instr} (hr : resetsPorts c = true)
    (h : exec c s = .next t) (hs : ∀ q, R (s.port q)) (q : Port) : R (t.port q) := by
  have quiet : R (s.quiet.port q) := by
    rw [quiet_port]
    exact hR.kept (cutFrame_kept _) (hs q)
  have rebuilt {u : State} {why : HoldReason} {eye lbsy : Bool} (hu : R (u.port q)) :
      R ((u.restartBlocks why eye lbsy).port q) :=
    hR.kept ((within_restartBlocks u why eye lbsy).alerts q).kept hu
  cases c with
  | restart p eye lbsy =>
    rcases exec_restart_cases h with rfl | ⟨r, rfl⟩
    · exact hs q
    · refine rebuilt (u := s.restartPorts p r) ?_
      rw [restartPorts_port]
      split
      · exact hR.kept (enterBuffer_kept _ _) (hR.restarted q (s.port q))
      · exact hR.restarted q (s.port q)
  | powerOnReset => cases h; exact quiet
  | coldStart eye cut =>
    rcases exec_coldStart_eq eye cut s with e | e <;> rw [e] at h <;> cases h
    · exact hs q
    · exact hR.begun s.ports q
  | warmStart eye lbsy e =>
    rcases exec_warmStart_cases h with rfl | rfl | ⟨charges, packs, n, rfl⟩
    · exact hs q
    · exact rebuilt (hR.begun s.ports q)
    · rw [State.port, (warmCut_frame s charges packs n).1]
      exact hs q
  | mainPowerFail low =>
    by_cases hp : s.retention.phase = .off
    · rw [exec_mainPowerFail_off hp] at h
      cases h
      exact hs q
    · rw [exec_mainPowerFail_on hp] at h
      cases h
      exact quiet
  | _ => cases hr

/-- Every command keeps an invariant of the units. -/
theorem exec_unitInv {R : PortUnit → Prop} (hR : UnitInv R) {c : Instr} (h : exec c s = .next t)
    (hs : ∀ q, R (s.port q)) (q : Port) : R (t.port q) := by
  cases hr : resetsPorts c with
  | true => exact reset_unitInv hR hr h hs q
  | false => exact hR.kept (exec_kept h hr fun _ => rfl).weaken (hs q)

/-! ## Claims -/

/-- A claim is seized by Y alone (R23). -/
def ClaimRecord.Ok (c : ClaimRecord) : Prop := c.seized = true → c.owner = some .Y

theorem free_ok : ClaimRecord.free.Ok := nofun

theorem claimsOk_free : ClaimsOk (s.withClaims .free) := by
  intro res h
  cases res <;> simp [State.claim, Claims.get, Claims.free, ClaimRecord.free] at h

/-- A map that keeps every record sound keeps the table sound. -/
theorem claimsOk_map {f : ClaimRecord → ClaimRecord} (hf : ∀ c, c.Ok → (f c).Ok) (h : ClaimsOk s)
    (ht : t.claims = s.claims.map f) : ClaimsOk t := by
  intro res
  rw [State.claim, ht, Claims.get_map]
  exact hf _ (h res)

theorem claimsOk_of_eq (h : ClaimsOk s) (ht : t.claims = s.claims) : ClaimsOk t := by
  intro res
  rw [State.claim, ht]
  exact h res

theorem claimsOk_setClaim {res : Resource} {x : ClaimRecord} (h : ClaimsOk s) (hx : x.Ok) : ClaimsOk (s.setClaim res x) := by
  intro r
  by_cases hr : r = res
  · subst hr
    rw [State.setClaim_claim_same]
    exact hx
  · rw [State.setClaim_claim_ne _ _ hr]
    exact h r

theorem claimAct_claimsOk (h : ClaimsOk s) (p : Port) (r : Request) : Gives (fun x => ClaimsOk x.1) (claimAct p r s) := by
  refine .bind fun res => ?_
  dsimp only
  split
  · rename_i ho
    refine .pure (claimsOk_setClaim h fun hs => ?_)
    have := h res hs
    rw [ho] at this
    cases this
  · exact .ite (.pure h) (.error _)

theorem releaseAct_claimsOk (h : ClaimsOk s) (p : Port) (r : Request) : Gives (fun x => ClaimsOk x.1) (releaseAct p r s) :=
  .bind fun _ => .bind fun _ => .pure (claimsOk_setClaim h free_ok)

theorem claimLost_claims (s : State) (q : Option Port) : (s.claimLost q).claims = s.claims := by
  unfold State.claimLost
  split <;> rfl

theorem seizeAct_claimsOk (h : ClaimsOk s) (p : Port) (r : Request) : Gives (fun x => ClaimsOk x.1) (seizeAct p r s) :=
  .bind fun _ => .pure (claimsOk_of_eq (claimsOk_setClaim h fun _ => rfl) (claimLost_claims _ _))

/-- A take keeps the claim table sound where its act does. -/
theorem takeRequest_claimsOk {code : Byte} {act : Act} {p : Port} (h : ClaimsOk s)
    (ha : ∀ r, Gives (fun x => ClaimsOk x.1) (act p r s)) (ht : takeRequest code act p s = .next t) : ClaimsOk t := by
  rcases takeRequest_cases ht with ⟨e, _⟩ | ⟨r, u, b, _, hu, e⟩ | ⟨r, x, _, _, e⟩ <;> cases e
  · exact h
  · exact ha r _ hu
  · exact h

/-- A frame of PORT RESET frees its port's claims that are not seized, or leaves the table (R32). -/
theorem exec_portReset_claims {p : Port} {e : FrameEvent} (h : exec (.portReset p e) s = .next t) :
    t.claims = s.claims ∨ t.claims = s.claims.map (ClaimRecord.freeFor p) := by
  change transfer _ p e s = _ at h
  unfold transfer at h
  cases h
  split
  · exact .inl (by cases e <;> rfl)
  · cases e with
    | rises bs =>
      change (State.endFrame _ _ _ _).claims = _ ∨ (State.endFrame _ _ _ _).claims = _
      unfold State.endFrame
      split
      · exact .inl rfl
      · split
        · exact .inr rfl
        · exact .inl rfl
    | _ => exact .inl rfl

theorem freeFor_ok (p : Port) (c : ClaimRecord) (h : c.Ok) : (c.freeFor p).Ok := by
  unfold ClaimRecord.freeFor
  split
  · exact free_ok
  · exact h

theorem restarted_claim_ok (c : ClaimRecord) (h : c.Ok) : c.restarted.Ok := by
  unfold ClaimRecord.restarted
  split
  · exact h
  · exact free_ok

theorem restarted_claims (p : Port) (r : Request) (eye lbsy : Bool) (s : State) :
    (s.restarted p r eye lbsy).claims = s.claims.map ClaimRecord.restarted :=
  (within_restartBlocks _ .restart eye lbsy).blocks .claims rfl

/-- Every command keeps a seized claim Y's. -/
theorem exec_claimsOk {c : Instr} (hs : ClaimsOk s) (h : exec c s = .next t) : ClaimsOk t := by
  cases hc : changesClaims c with
  | false => exact claimsOk_of_eq hs (exec_blocks h .claims hc)
  | true =>
    cases c with
    | claim p => exact takeRequest_claimsOk hs (claimAct_claimsOk hs p) h
    | release p => exact takeRequest_claimsOk hs (releaseAct_claimsOk hs p) h
    | seize p => exact takeRequest_claimsOk hs (seizeAct_claimsOk hs p) h
    | portReset p e =>
      rcases exec_portReset_claims h with ht | ht
      · exact claimsOk_of_eq hs ht
      · exact claimsOk_map (freeFor_ok p) hs ht
    | restart p eye lbsy =>
      rcases exec_restart_cases h with rfl | ⟨r, rfl⟩
      · exact hs
      · exact claimsOk_map restarted_claim_ok hs (restarted_claims p r eye lbsy s)
    | coldStart eye cut =>
      rcases exec_coldStart_eq eye cut s with e | e <;> rw [e] at h <;> cases h
      · exact hs
      · exact claimsOk_of_eq (claimsOk_free (s := s)) rfl
    | warmStart eye lbsy e =>
      rcases exec_warmStart_cases h with rfl | rfl | ⟨charges, packs, n, rfl⟩
      · exact hs
      · exact claimsOk_of_eq (claimsOk_free (s := s)) ((within_restartBlocks _ .power eye lbsy).blocks .claims rfl)
      · exact claimsOk_of_eq hs ((warmCut_frame s charges packs n).2 .claims rfl)
    | _ => cases hc

/-! ## Open frames (R20) -/

/-- Until a start completes no take, arrival, event of a block or RESTART does anything (R199). -/
theorem exec_idle {c : Instr} (hp : s.retention.phase ≠ .running) (hc : takenBy c ≠ none ∨ (portOf c = none ∧
    resetsPorts c = false ∧ c ≠ .millClockMinute ∧ c ≠ .backupMonitorTrip) ∨ ∃ p i, c = .answerArrival p i) :
    exec c s = .next s := by
  rcases hc with ht | ⟨hn, hr, hm, hb⟩ | ⟨p, i, rfl⟩
  · obtain ⟨⟨p, code⟩, ht⟩ := Option.ne_none_iff_exists'.1 ht
    rw [exec_take ht]
    exact event_idle hp
  · cases c with
    | kilnMinuteExpiry | eyeEdge | meterFrame | meterIdleTimeout | busCycleComplete | lbsyFall | printerTimeout
    | meterByteReceived | eyeFilteredFall => exact congrArg _ (if_neg hp)
    | millClockMinute => exact absurd rfl hm
    | backupMonitorTrip => exact absurd rfl hb
    | restart | powerOnReset | coldStart | warmStart | mainPowerFail => cases hr
    | _ => cases hn
  · exact congrArg _ (if_neg hp)

/-- Where every open frame is cut, a frame that is open now is cut, and so is what becomes of it. -/
theorem frameOf_cut {p : Port} (hp : s.retention.phase ≠ .running) (hs : ∀ f, (s.port p).frame = some f → f.cut = true) :
    (s.frameOf p).cut = true := by
  unfold State.frameOf
  cases hf : (s.port p).frame with
  | none => simp [State.newFrame, hp]
  | some f => exact hs f hf

theorem kindByte_cut (s : State) (p : Port) (f : OpenFrame) : (s.kindByte p f).cut = f.cut := by
  unfold State.kindByte
  split <;> rfl

theorem frameAfter_cut {x : Transfer} {p : Port} (bs : List Byte) (h : (s.frameOf p).cut = true) :
    (s.frameAfter x p bs).cut = true := by
  rw [← h]
  exact kindByte_cut s p _

/-- Until a start completes, an event of a frame leaves that port's frame closed or cut, and everything else as it was. -/
theorem transfer_cut {x : Transfer} {p : Port} {e : FrameEvent} (hp : s.retention.phase ≠ .running)
    (hs : ∀ f, (s.port p).frame = some f → f.cut = true) (h : transfer x p e s = .next t) :
    ∃ v, t = s.setPort p v ∧ ∀ f, v.frame = some f → f.cut = true := by
  have cut := frameOf_cut hp hs
  unfold transfer at h
  cases h
  split
  · cases e with
    | falls | bytes => exact ⟨_, rfl, fun f hf => by cases hf; exact cut⟩
    | rises | empty => exact ⟨_, rfl, nofun⟩
  · cases e with
    | falls => exact ⟨_, rfl, fun f hf => by cases hf; simp [State.newFrame, hp]⟩
    | bytes bs => exact ⟨_, rfl, fun f hf => by cases hf; exact frameAfter_cut bs cut⟩
    | rises bs => exact ⟨_, if_pos (frameAfter_cut bs cut), nofun⟩
    | empty => exact ⟨_, rfl, nofun⟩

theorem framesOk_setPort {p : Port} {v : PortUnit} (h : FramesOk s) (hv : ∀ f, v.frame = some f → f.cut = true) :
    FramesOk (s.setPort p v) := by
  refine ⟨fun hp q f hf => ?_⟩
  by_cases hq : q = p
  · subst hq
    rw [State.setPort_port_same] at hf
    exact hv f hf
  · rw [State.setPort_port_ne _ _ _ _ hq] at hf
    exact h.cut hp q f hf

theorem transfer_framesOk {x : Transfer} {p : Port} {e : FrameEvent} (h : FramesOk s) (hp : s.retention.phase ≠ .running)
    (ht : transfer x p e s = .next t) : FramesOk t := by
  obtain ⟨v, rfl, hv⟩ := transfer_cut hp (h.cut hp p) ht
  exact framesOk_setPort h hv

theorem framesOk_of_eq (h : FramesOk s) (hp : t.ports = s.ports) (hr : t.retention.phase = s.retention.phase) :
    FramesOk t :=
  ⟨fun ht q f hf => h.cut (hr ▸ ht) q f (by rw [State.port, ← hp]; exact hf)⟩

theorem framesOk_running (h : t.retention.phase = .running) : FramesOk t := ⟨fun ht => absurd h ht⟩

theorem quiet_framesOk (hp : t.ports = s.quiet.ports) : FramesOk t := by
  refine ⟨fun _ q f hf => ?_⟩
  have ht : t.port q = s.quiet.port q := congrArg (Ports.get · q) hp
  rw [ht, quiet_port] at hf
  simp only [PortUnit.cutFrame, Option.map_eq_some_iff] at hf
  obtain ⟨g, _, rfl⟩ := hf
  rfl

/-- A power command keeps frames cut until a start completes. -/
theorem retention_framesOk {c : Instr} (hc : changesRetention c = true) (hs : FramesOk s) (h : exec c s = .next t) :
    FramesOk t := by
  cases c with
  | powerOnReset => cases h; exact quiet_framesOk rfl
  | coldStart eye cut =>
    rcases exec_coldStart_eq eye cut s with e | e <;> rw [e] at h <;> cases h
    · exact hs
    · exact framesOk_running rfl
  | warmStart eye lbsy e =>
    rcases exec_warmStart_cases h with rfl | rfl | ⟨charges, packs, n, rfl⟩
    · exact hs
    · refine framesOk_running ?_
      rw [show (s.warmStarted eye lbsy).retention = _ from (within_restartBlocks _ .power eye lbsy).blocks .retention rfl]
      rfl
    · obtain ⟨ports, blocks⟩ := warmCut_frame s charges packs n
      exact framesOk_of_eq hs ports (congrArg Retention.phase (blocks .retention rfl))
  | backupMonitorTrip =>
    cases h
    split
    · exact framesOk_of_eq hs rfl rfl
    · exact hs
  | mainPowerFail low =>
    by_cases hp : s.retention.phase = .off
    · rw [exec_mainPowerFail_off hp] at h
      cases h
      exact hs
    · rw [exec_mainPowerFail_on hp] at h
      cases h
      exact quiet_framesOk rfl
  | _ => cases hc

/-- Every command keeps frames cut until a start completes. -/
theorem exec_framesOk {c : Instr} (hs : FramesOk s) (h : exec c s = .next t) : FramesOk t := by
  cases hc : changesRetention c with
  | true => exact retention_framesOk hc hs h
  | false =>
    have same : t.retention = s.retention := exec_blocks h .retention hc
    by_cases hp : s.retention.phase = .running
    · exact framesOk_running (same ▸ hp)
    · have idle (hi : takenBy c ≠ none ∨ (portOf c = none ∧ resetsPorts c = false ∧ c ≠ .millClockMinute ∧
          c ≠ .backupMonitorTrip) ∨ ∃ p i, c = .answerArrival p i) : FramesOk t := by
        rw [exec_idle hp hi] at h
        cases h
        exact hs
      cases c with
      | post | withdraw | fetch | peek | note | ack | mask | portReset => exact transfer_framesOk hs hp h
      | unknownTransfer p kind e =>
        change execUnknownTransfer p kind e s = _ at h
        unfold execUnknownTransfer at h
        split at h
        · exact transfer_framesOk hs hp h
        · cases h; exact hs
      | answerArrival p i => exact idle (.inr (.inr ⟨p, i, rfl⟩))
      | millClockMinute => cases h; exact framesOk_of_eq hs rfl rfl
      | restart p eye lbsy =>
        rw [exec_restart_idle fun r hr => hp hr.1] at h
        cases h
        exact hs
      | kilnMinuteExpiry | eyeEdge | meterFrame | meterIdleTimeout | busCycleComplete | lbsyFall | printerTimeout
      | meterByteReceived | eyeFilteredFall => exact idle (.inr (.inl ⟨rfl, rfl, nofun, nofun⟩))
      | powerOnReset | coldStart | warmStart | backupMonitorTrip | mainPowerFail => cases hc
      | _ => exact idle (.inl nofun)

/-! ## Steps -/

/-- What every command keeps, and what does not look at the queue, every step keeps. -/
theorem stepKeeps_of_exec {Inv : State → Prop} (queue : ∀ s l, Inv s → Inv (s.withPending l))
    (keeps : ∀ {c : Instr} {s t : State}, Inv s → exec c s = .next t → Inv t) : StepKeeps Inv := by
  intro s t hs h
  unfold step at h
  split at h
  · cases h; exact hs
  · exact keeps (queue s _ hs) h

end Sys2Proof.Machine

open Sys2Proof Sys2Proof.Machine in
/-- Settles O57: each of the four invariants is kept by every command, and none looks at the queue. -/
theorem everyStepKeepsPortsAndClaims : Obligations.EveryStepKeepsPortsAndClaims :=
  ⟨stepKeeps_of_exec (fun _ _ h => h) exec_claimsOk,
    stepKeeps_of_exec (fun _ _ h => h) fun hs h => exec_unitInv causesOk_unitInv h hs,
    stepKeeps_of_exec (fun _ _ h => h) fun hs h => exec_unitInv slotOk_unitInv h hs,
    stepKeeps_of_exec (fun _ _ h => ⟨h.cut⟩) exec_framesOk⟩

open Sys2Proof Sys2Proof.Machine in
/-- Settles O13: a unit that a command is not about is alerted at most. -/
theorem portUnitsAreSeparate : Obligations.PortUnitsAreSeparate := by
  unfold Obligations.PortUnitsAreSeparate
  intro c q s t h hr hq
  obtain ⟨m, hm⟩ := exec_alerts h hr hq
  rw [hm]

open Sys2Proof Sys2Proof.Machine in
/-- Settles O14: what a raise does to one unit, and what every command keeps of a unit where it acknowledges nothing. -/
theorem pendingCausesStayUntilAcked : Obligations.PendingCausesStayUntilAcked := by
  unfold Obligations.PendingCausesStayUntilAcked
  constructor
  · intro n c s hc
    have bit : c.bit = BitVec.ofNat 24 (2 ^ n) := by
      have hn : n < 19 := (List.getElem?_eq_some_iff.1 hc).1
      interval_cases n <;> cases hc <;> rfl
    dsimp only
    rw [← bit]
    exact ⟨fun p q => State.raiseAt_port s p q c, fun q => State.raiseAll_port s q c⟩
  · intro c q s t h hr hack hreset
    refine (exec_kept h hr fun hq => ?_).pending rfl
    cases c with
    | ack p f => cases hq; exact absurd rfl (hack f)
    | portReset p f => cases hq; exact absurd rfl (hreset f)
    | _ => rfl

end

section
/-! SUPPORT. Whole frames: what the chip select's rise does to a port without a frame in progress, for each transfer. -/

namespace Sys2Proof.Machine

variable {s t : State} {p : Port} {bs reply : List Byte} {x : Transfer}

/-! ## Frames -/

@[simp] theorem State.setPort_setPort (s : State) (p : Port) (u v : PortUnit) : (s.setPort p u).setPort p v = s.setPort p v := by
  cases p <;> rfl

@[simp] theorem State.setPort_self (s : State) (p : Port) : s.setPort p (s.port p) = s := by
  cases p <;> rfl

@[simp] theorem State.closeFrame_port (s : State) (p : Port) (f : OpenFrame) :
    (s.closeFrame p f).port p = { s.port p with frame := none, sent := f.sent } :=
  State.setPort_port_same _ _ _

@[simp] theorem State.closeFrame_setPort (s : State) (p : Port) (f : OpenFrame) (u : PortUnit) :
    (s.closeFrame p f).setPort p u = s.setPort p u :=
  State.setPort_setPort _ _ _ _

/-- A frame that opened at a running part, got the bytes `bs` after its kind byte and answered `reply`. -/
def State.wholeFrame (s : State) (p : Port) (reply bs : List Byte) : OpenFrame :=
  { status := s.statusByte p, copy := some { buffer := (s.port p).buffer, status := s.statusRecord p }, received := bs,
    sent := sentBytes (s.statusByte p) reply bs.length, cut := false }

@[simp] theorem wholeFrame_received (s : State) (p : Port) (reply bs : List Byte) :
    (s.wholeFrame p reply bs).received = bs := rfl

@[simp] theorem wholeFrame_sent (s : State) (p : Port) (reply bs : List Byte) :
    (s.wholeFrame p reply bs).sent = sentBytes (s.statusByte p) reply bs.length := rfl

@[simp] theorem wholeFrame_cut (s : State) (p : Port) (reply bs : List Byte) : (s.wholeFrame p reply bs).cut = false := rfl

theorem frameAfter_quiet (h : Quiet s p) (x : Transfer) (bs : List Byte) :
    s.frameAfter x p bs = s.wholeFrame p (x.reply (s.wholeFrame p [] [])) bs := by
  obtain ⟨hp, hf⟩ := h
  have opened : s.kindByte p (s.frameOf p) = s.wholeFrame p [] [] := by
    simp [State.kindByte, State.frameOf, State.newFrame, State.wholeFrame, sentBytes, hp, hf]
  unfold State.frameAfter
  dsimp only
  rw [opened]
  simp [OpenFrame.exchange, State.wholeFrame, sentBytes]

/-- A whole frame that is complete: the transfer acts, and its rule gives the last result. -/
theorem transfer_complete {u : State} {r : LastResult} (h : Quiet s p) (hr : x.reply (s.wholeFrame p [] []) = reply)
    (hc : isComplete x (s.wholeFrame p reply bs) = true)
    (ha : x.act (s.wholeFrame p reply bs) (s.closeFrame p (s.wholeFrame p reply bs)) = (u, r)) :
    transfer x p (.rises bs) s = .next (u.setLast p r) := by
  simp [transfer, State.frameEvent, frameAfter_quiet h, hr, h.1, State.endFrame, hc, ha]

/-- A whole frame whose act leaves the unit `v` at its port, the frame over. -/
theorem transfer_framed {v : PortUnit} {r : LastResult} (h : Quiet s p) (hr : x.reply (s.wholeFrame p [] []) = reply)
    (hc : isComplete x (s.wholeFrame p reply bs) = true)
    (ha : x.act (s.wholeFrame p reply bs) (s.closeFrame p (s.wholeFrame p reply bs)) =
      (s.setPort p { v with frame := none, sent := sentBytes (s.statusByte p) reply bs.length }, r)) :
    transfer x p (.rises bs) s = .next (s.framed p bs reply v r) := by
  rw [transfer_complete h hr hc ha]
  simp [State.setLast, State.framed]

/-- A whole frame whose act changes nothing. -/
theorem transfer_unchanged {r : LastResult} (h : Quiet s p) (hr : x.reply (s.wholeFrame p [] []) = reply)
    (hc : isComplete x (s.wholeFrame p reply bs) = true)
    (ha : x.act (s.wholeFrame p reply bs) (s.closeFrame p (s.wholeFrame p reply bs)) =
      (s.closeFrame p (s.wholeFrame p reply bs), r)) :
    transfer x p (.rises bs) s = .next (s.framed p bs reply (s.port p) r) :=
  transfer_framed h hr hc ha

/-- A counter that stays at 255. -/
theorem satInc_max8 (n : Nat) : satInc max8 n = if n < 255 then n + 1 else 255 := by
  unfold satInc max8
  split <;> omega

/-- A whole frame that is short: it is counted, and the last result is FRAME_SHORT (R2). -/
theorem transfer_short (h : Quiet s p) (hr : x.reply (s.wholeFrame p [] []) = reply)
    (hc : isComplete x (s.wholeFrame p reply bs) = false) :
    transfer x p (.rises bs) s = .next (s.framed p bs reply
      { s.port p with errors := if (s.port p).errors < 255 then (s.port p).errors + 1 else 255 } .frameShort) := by
  simp [transfer, State.frameEvent, frameAfter_quiet h, hr, h.1, State.endFrame, hc, State.shortFrame, State.framed,
    satInc_max8]

/-! ## Completeness -/

@[simp] theorem isComplete_plain (n : Nat) (act : OpenFrame → State → State × LastResult) (f : OpenFrame) :
    isComplete (plainTransfer n act) f = decide (n ≤ f.received.length + 1) := rfl

/-! ## Bytes and bit vectors -/

/-- A number with one more byte behind it (R21). -/
theorem ofNat_append_byte {w : Nat} (a : BitVec w) (b : Byte) :
    BitVec.ofNat (w + 8) (a.toNat * 256 + b.toNat) = (a ++ b : BitVec (w + 8)) := by
  apply BitVec.eq_of_toNat_eq
  have hb : b.toNat < 2 ^ 8 := b.isLt
  rw [BitVec.toNat_append, ← Nat.shiftLeft_add_eq_or_of_lt hb, Nat.shiftLeft_eq, BitVec.toNat_ofNat, Nat.mod_eq_of_lt]
  have ha := a.isLt
  rw [Nat.pow_add]
  omega

theorem beNat_append_byte (bs : List Byte) (b : Byte) : beNat (bs ++ [b]) = beNat bs * 256 + b.toNat := by
  simp [beNat]

theorem beNat_pair (a b : Byte) : beNat [a, b] = a.toNat * 256 + b.toNat := by simp [beNat]

theorem tag_of_bytes (high low : Byte) : BitVec.ofNat 16 (beNat [high, low]) = high ++ low := by
  rw [beNat_pair]
  exact ofNat_append_byte high low

theorem causeSet_of_bytes (a b c : Byte) : BitVec.ofNat 24 (beNat [a, b, c]) = (a ++ b ++ c : BitVec 24) := by
  have two : beNat [a, b] = (a ++ b : BitVec 16).toNat := by
    rw [← tag_of_bytes, BitVec.toNat_ofNat, Nat.mod_eq_of_lt]
    rw [beNat_pair]
    have ha := a.isLt
    have hb := b.isLt
    omega
  rw [show [a, b, c] = [a, b] ++ [c] from rfl, beNat_append_byte, two]
  exact ofNat_append_byte (a ++ b : BitVec 16) c

/-! ## POST -/

theorem requestOf_bytes (kind high low l : Byte) (rest : List Byte) :
    requestOf (kind :: high :: low :: l :: rest) = { kind := kind, tag := high ++ low, body := rest.take l.toNat } := by
  simp [requestOf, tag_of_bytes]

/-- The frame of a POST is complete with as many body bytes as its length byte says, up to 248 (R4, R21). -/
theorem isComplete_post {act : OpenFrame → State → State × LastResult} {f : OpenFrame} {l : Byte}
    (h : f.received[3]? = some l) :
    isComplete { declared := postDeclared, reply := fun _ => [], act := act } f = true ↔
      (l.toNat ≤ 248 → 4 + l.toNat ≤ f.received.length) := by
  have four : 3 < f.received.length := (List.getElem?_eq_some_iff.1 h).1
  by_cases hl : l.toNat ≤ 248 <;> simp [isComplete, postDeclared, h, Config.bodyBytes, hl] <;> omega

theorem postAct_accepts {f : OpenFrame} (hl : (f.received.getD 3 0).toNat ≤ 248) (hs : (s.port p).slot = .empty) :
    postAct p f s = (s.accept p (requestOf f.received), .ok) := by
  unfold postAct
  rw [if_neg (show ¬Config.bodyBytes < _ from Nat.not_lt.2 hl), hs]

theorem postAct_busy {f : OpenFrame} (hl : (f.received.getD 3 0).toNat ≤ 248) (hs : (s.port p).slot ≠ .empty) :
    postAct p f s = (s, .slotBusy) := by
  unfold postAct
  rw [if_neg (show ¬Config.bodyBytes < _ from Nat.not_lt.2 hl)]
  cases h : (s.port p).slot with
  | empty => exact absurd h hs
  | _ => rfl

theorem postAct_badLength {f : OpenFrame} (hl : 248 < (f.received.getD 3 0).toNat) : postAct p f s = (s, .badLength) :=
  if_pos hl

theorem accept_eq (p : Port) (r : Request) (s : State) :
    s.accept p r = s.setPort p (match portCheck p r with
      | none => { s.port p with slot := .posted r, ticket := (s.port p).ticket + 1 }
      | some e => { s.port p with
          slot := .taken r, ticket := (s.port p).ticket + 1
          inFlight := (s.port p).inFlight ++ [((s.port p).ticket + 1, ⟨r.kind, r.tag, .refused e⟩)] }) := by
  unfold State.accept State.handBack
  cases portCheck p r <;> simp

/-! ## NOTE and PORT RESET -/

theorem State.setPort_port (s : State) (p q : Port) (u : PortUnit) :
    (s.setPort p u).port q = if q = p then u else s.port q := by
  by_cases h : q = p
  · subst h; simp
  · simp [h, State.setPort_port_ne]

theorem setNotes_port (s : State) (p q : Port) (v : BitVec 4) :
    (s.setNotes p v).port q =
      if q = p then { s.port p with notes := v }
      else if v = (s.port p).notes then s.port q else (s.port q).raise .noteChanged := by
  unfold State.setNotes
  dsimp only
  by_cases hq : q = p <;> by_cases hv : v = (s.port p).notes <;>
    simp [hq, hv, raiseOthers_port, State.setPort_port]

/-- Setting note flags changes the port units alone. -/
theorem setNotes_eq (s : State) (p : Port) (v : BitVec 4) : s.setNotes p v = s.withPorts (s.setNotes p v).ports := by
  unfold State.setNotes
  dsimp only
  split <;> rfl

/-- The notes set by a whole frame, with its last result: the unit of the port, and the others told of a change. -/
theorem setNotes_framed (s : State) (p q : Port) (v : BitVec 4) (u : PortUnit) (r : LastResult) :
    (((s.setPort p u).setNotes p v).setLast p r).port q =
      if q = p then { u with notes := v, last := r }
      else if v = u.notes then s.port q else (s.port q).raise .noteChanged := by
  by_cases hq : q = p
  · subst hq
    simp [State.setLast, setNotes_port]
  · simp [State.setLast, State.setPort_port, setNotes_port, hq]

/-! ## The transfers among the commands -/

/-- A transfer whose reply depends on the copy alone. -/
def Transfer.ByCopy (x : Transfer) : Prop := ∀ f g : OpenFrame, f.copy = g.copy → x.reply f = x.reply g

/-- Every command of a frame is an event of one transfer, or changes nothing at all. -/
theorem isTransfer_exec {c : FrameEvent → Instr} (h : isTransfer p c) :
    (∃ x : Transfer, x.ByCopy ∧ ∀ e s, exec (c e) s = transfer x p e s) ∨ ∀ e s, exec (c e) s = .next s := by
  rcases h with rfl | rfl | rfl | rfl | rfl | rfl | rfl | rfl | ⟨kind, rfl⟩
  · exact .inl ⟨_, fun _ _ _ => rfl, fun _ _ => rfl⟩
  · exact .inl ⟨_, fun _ _ _ => rfl, fun _ _ => rfl⟩
  · exact .inl ⟨_, fun f g h => by simp only [fetchReply, OpenFrame.answer, h], fun _ _ => rfl⟩
  · exact .inl ⟨_, fun f g h => by simp only [peekReply, h], fun _ _ => rfl⟩
  · exact .inl ⟨_, fun _ _ _ => rfl, fun _ _ => rfl⟩
  · exact .inl ⟨_, fun _ _ _ => rfl, fun _ _ => rfl⟩
  · exact .inl ⟨_, fun _ _ _ => rfl, fun _ _ => rfl⟩
  · exact .inl ⟨_, fun _ _ _ => rfl, fun _ _ => rfl⟩
  · by_cases hk : kindIsUnknown kind = true
    · exact .inl ⟨plainTransfer 1 fun _ t => (t, .badTransfer), fun _ _ _ => rfl, fun _ _ => if_pos hk⟩
    · exact .inr fun _ _ => if_neg hk

/-- A port without a frame in progress, its frame said to be absent, is as it was. -/
theorem quiet_unit (h : Quiet s p) : ({ s.port p with frame := none } : PortUnit) = s.port p := by
  rw [← h.2]

theorem transfer_empty (x : Transfer) (h : s.retention.phase = .running) :
    transfer x p .empty s = .next (s.setPort p { s.port p with frame := none }) := by
  simp [transfer, State.frameEvent, h]

theorem transfer_falls (x : Transfer) (h : s.retention.phase = .running) :
    transfer x p .falls s = .next (s.setPort p { s.port p with frame := some (s.newFrame p) }) := by
  simp [transfer, State.frameEvent, h]

/-! ## Kind bytes (R21) -/

theorem kindIsUnknown_iff (kind : Byte) :
    kindIsUnknown kind = true ↔ kind ∉ ([0xC1, 0xC2, 0xC3, 0xC4, 0xC5, 0xC6, 0xC7, 0xCF] : List Byte) := by
  simp [kindIsUnknown, transferKinds, transferTable]

theorem frameCommand_unknown {kind : Byte} (h : kindIsUnknown kind = true) (p : Port) (e : FrameEvent) :
    frameCommand p kind e = .unknownTransfer p kind e := by
  have none : transferTable.find? (fun row => row.1 == kind) = none := by
    rw [List.find?_eq_none]
    intro row hrow hk
    have : kind ∈ transferKinds := List.mem_map.2 ⟨row, hrow, by simpa using hk⟩
    simp [kindIsUnknown, this] at h
  simp [frameCommand, none]

/-! ## FETCH -/

theorem fetchReply_some {a : Answer} (h : (s.port p).buffer = some a) (reply bs : List Byte) :
    fetchReply (s.wholeFrame p reply bs) = BitVec.ofNat 8 a.bytes.length :: a.bytes := by
  simp [fetchReply, OpenFrame.answer, State.wholeFrame, h]

theorem fetchReply_none (h : (s.port p).buffer = none) (reply bs : List Byte) :
    fetchReply (s.wholeFrame p reply bs) = [0] := by
  simp [fetchReply, OpenFrame.answer, State.wholeFrame, h]

/-- What FETCH does by the copy it was built from. -/
theorem wholeFrame_answer (s : State) (p : Port) (reply bs : List Byte) :
    (s.wholeFrame p reply bs).answer = (s.port p).buffer := rfl

/-- The transfer of FETCH. -/
abbrev fetchTransfer (p : Port) : Transfer :=
  { declared := fun f => some (1 + (fetchReply f).length), reply := fetchReply, act := fetchAct p }

/-- The transfer of PEEK. -/
abbrev peekTransfer : Transfer := { declared := fun _ => some 16, reply := peekReply, act := fun _ t => (t, .ok) }

end Sys2Proof.Machine

section
open Sys2Proof Sys2Proof.Machine

/-- Settles O3: a complete frame of POST by the slot and the length byte. -/
theorem postActsOnTheSlotState : Obligations.PostActsOnTheSlotState := by
  unfold Obligations.PostActsOnTheSlotState
  intro p kind high low l rest s hq bs r
  have hr : requestOf bs = r := requestOf_bytes kind high low l rest
  have complete (h : l.toNat ≤ 248 → l.toNat ≤ rest.length) :
      isComplete { declared := postDeclared, reply := fun _ => [], act := postAct p } (s.wholeFrame p [] bs) = true := by
    refine (isComplete_post (l := l) rfl).2 fun hl => ?_
    have := h hl
    simp only [wholeFrame_received, bs, List.length_cons]
    omega
  have posted (hl : l.toNat ≤ 248) (hs : (s.port p).slot = .empty) :
      postAct p (s.wholeFrame p [] bs) (s.closeFrame p (s.wholeFrame p [] bs)) =
        ((s.closeFrame p (s.wholeFrame p [] bs)).accept p r, .ok) := by
    rw [← hr]
    exact postAct_accepts hl (by simpa using hs)
  refine ⟨fun hl hn hs => ⟨fun hc => ?_, fun e hc => ?_⟩, fun hl hn hs => ?_, fun hl => ?_⟩
  · exact transfer_framed hq rfl (complete fun _ => hn) ((posted hl hs).trans (by simp [accept_eq, hc]))
  · exact transfer_framed hq rfl (complete fun _ => hn) ((posted hl hs).trans (by simp [accept_eq, hc]))
  · exact transfer_unchanged hq rfl (complete fun _ => hn) (postAct_busy hl (by simpa using hs))
  · exact transfer_unchanged hq rfl (complete fun h => by omega) (postAct_badLength hl)

/-- Settles O5: WITHDRAW by the slot. -/
theorem withdrawActsOnTheSlotState : Obligations.WithdrawActsOnTheSlotState := by
  unfold Obligations.WithdrawActsOnTheSlotState
  intro p bs s hq
  have complete : isComplete (plainTransfer 1 (withdrawAct p)) (s.wholeFrame p [] bs) = true :=
    by simp
  refine ⟨fun r h => ?_, fun r h => ?_, fun a h => ?_, fun h => ?_⟩
  · exact transfer_framed hq rfl complete (by simp [plainTransfer, withdrawAct, h])
  all_goals exact transfer_unchanged hq rfl complete (by simp [plainTransfer, withdrawAct, h])

/-- Settles O7: NOTE sets its own unit's flags, and a change is told to the others. -/
theorem noteSetsFlagsAndTellsTheOthers : Obligations.NoteSetsFlagsAndTellsTheOthers := by
  unfold Obligations.NoteSetsFlagsAndTellsTheOthers
  intro p b bs s hq
  let f := s.wholeFrame p [] (b :: bs)
  have done : exec (.note p (.rises (b :: bs))) s =
      .next (((s.closeFrame p f).setNotes p (b.setWidth 4)).setLast p .ok) :=
    transfer_complete (x := plainTransfer 2 (noteAct p)) hq rfl (by simp) rfl
  refine ⟨(((s.closeFrame p f).setNotes p (b.setWidth 4)).setLast p .ok).ports, ?_, ?_, fun q hq => ?_⟩
  · rw [done, setNotes_eq]
    rfl
  · exact (setNotes_framed ..).trans (by simp [State.framed, f])
  · exact (setNotes_framed ..).trans (by simp [hq])

/-- Settles O8: the cause set of three bytes, taken out of the pending set or made the enable set. -/
theorem ackAndMaskWriteTheCauseSets : Obligations.AckAndMaskWriteTheCauseSets := by
  unfold Obligations.AckAndMaskWriteTheCauseSets
  intro p b0 b1 b2 bs s hq carried acked
  have set : causeSetOf (s.wholeFrame p [] (b0 :: b1 :: b2 :: bs)) = carried := by
    simp [causeSetOf, causeSet_of_bytes, carried, causeBits]
  refine ⟨?_, fun h => ?_, ?_⟩
  · exact transfer_framed (x := plainTransfer 4 (ackAct p)) hq rfl (by simp) (by simp [plainTransfer, ackAct, set])
  · simp [acked, State.framed, PortUnit.attention, h]
  · exact transfer_framed (x := plainTransfer 4 (maskAct p)) hq rfl (by simp) (by simp [plainTransfer, maskAct, set])

/-- Settles O9: the port's own unit, the notes of the others, and the claims. -/
theorem portResetResetsItsOwnPort : Obligations.PortResetResetsItsOwnPort := by
  unfold Obligations.PortResetResetsItsOwnPort
  intro p bs s hq
  let f := s.wholeFrame p [] bs
  let u : PortUnit := { (s.closeFrame p f).port p with
    slot := .empty, buffer := none, pending := 0, enabled := defaultEnable p, errors := 0 }
  let t := ((s.setPort p u).setNotes p 0).setLast p .ok
  have done : exec (.portReset p (.rises bs)) s =
      .next ((((s.closeFrame p f).setPort p u).setNotes p 0).withClaims (s.claims.map (ClaimRecord.freeFor p)) |>.setLast p .ok) :=
    transfer_complete (x := plainTransfer 1 (portResetAct p)) hq rfl (by simp) rfl
  refine ⟨t.ports, s.claims.map (ClaimRecord.freeFor p), ?_, ?_, fun q hq => ?_, fun res => ?_⟩
  · rw [done, State.closeFrame_setPort]
    refine congrArg Host.Outcome.next ?_
    rw [setNotes_eq]
    rfl
  · exact (setNotes_framed ..).trans (by simp [State.framed, f, u])
  · exact (setNotes_framed ..).trans (by simp [hq, u, eq_comm])
  · rw [Claims.get_map]
    rfl

/-- Settles O10. -/
theorem shortAndUnknownFramesDoNotAct : Obligations.ShortAndUnknownFramesDoNotAct := by
  unfold Obligations.ShortAndUnknownFramesDoNotAct
  refine ⟨fun p e => ⟨rfl, rfl, rfl, rfl, rfl, rfl, rfl, rfl, fun kind =>
    ⟨kindIsUnknown_iff kind, fun h => frameCommand_unknown h p e⟩⟩, ?_⟩
  intro p bs s hq short
  refine ⟨fun h => ?_, fun l hl h h' => ?_, fun h => ?_, fun h => ⟨?_, ?_⟩, fun h => ?_, fun a ha h => ?_, fun hb h => ?_,
    fun c hc => ?_, fun kind => ⟨fun hk => ?_, fun hk => ?_⟩⟩
  · refine transfer_short hq rfl ?_
    have e : bs[3]? = none := by simp; omega
    simp [isComplete, postDeclared, e]
  · refine transfer_short hq rfl (Bool.eq_false_iff.2 fun hc => ?_)
    have := (isComplete_post (by exact hl)).1 hc h
    simp at this
    omega
  · exact transfer_short (x := plainTransfer 2 (noteAct p)) hq rfl (by simp [h])
  · exact transfer_short (x := plainTransfer 4 (ackAct p)) hq rfl (by simp; omega)
  · exact transfer_short (x := plainTransfer 4 (maskAct p)) hq rfl (by simp; omega)
  · exact transfer_short (x := peekTransfer) hq rfl (by simp [isComplete]; omega)
  · exact transfer_short (x := fetchTransfer p) hq (fetchReply_some ha [] []) (by simp [isComplete, fetchReply_some ha]; omega)
  · exact transfer_short (x := fetchTransfer p) hq (fetchReply_none hb [] []) (by simp [isComplete, fetchReply_none hb, h])
  · rcases isTransfer_exec hc with ⟨x, _, hx⟩ | hx
    · refine ⟨by rw [hx, transfer_empty x hq.1, quiet_unit hq, State.setPort_self], ?_⟩
      refine ⟨_, (hx .falls s).trans (transfer_falls x hq.1), (hx .empty _).trans ?_⟩
      refine (transfer_empty x (by exact hq.1)).trans ?_
      simp [quiet_unit hq]
    · exact ⟨hx .empty s, s, hx .falls s, hx .empty s⟩
  · exact (if_pos hk).trans (transfer_unchanged (x := plainTransfer 1 fun _ t => (t, .badTransfer)) hq rfl (by simp) rfl)
  · exact if_neg (by simp [hk])

/-- Settles O11: the answer in flight leaves the list, and slot, ticket and buffer decide where it goes. -/
theorem answerArrivesByTicketAndBuffer : Obligations.AnswerArrivesByTicketAndBuffer := by
  unfold Obligations.AnswerArrivesByTicketAndBuffer
  intro p i x a s hp hi u
  have arrives : exec (.answerArrival p i) s = .next ((s.setPort p u).arrive p x a) := by
    change execAnswerArrival p i s = _
    unfold execAnswerArrival
    simp only [event_running s hp, hi]
    rfl
  rw [arrives]
  refine ⟨fun r hs hx hb => ?_, fun r b hs hx hb => ?_, fun h => ?_⟩
  · simp [State.arrive, State.enterBuffer, PortUnit.raise, Cause.bit, Cause.number, u, hs, hx, hb]
  · simp [State.arrive, u, hs, hx, hb]
  · unfold State.arrive
    simp only [State.setPort_port_same]
    split
    · rename_i r hs
      rcases h with h | h
      · exact absurd hs (h r)
      · rw [if_neg h]
    · rfl

end

end

section
/-! SUPPORT. Frames in pieces (R2, log 3): what becomes of the frame in progress, and what a transfer does not look at. -/

namespace Sys2Proof.Machine

variable {s t : State} {p : Port} {x : Transfer}

/-! ## The frame in progress -/

theorem openFrame_eq (s : State) (p : Port) : s.openFrame p = s.frameOf p := by
  unfold State.openFrame State.frameOf State.newFrame
  cases (s.port p).frame <;> rfl

theorem kindByte_eq (s : State) (p : Port) (f : OpenFrame) :
    s.kindByte p f = { f with
      copy := some (s.copyFor p f), sent := if f.copy.isSome then f.sent else [if f.cut then 0 else f.status] } := by
  obtain ⟨status, copy, received, sent, cut⟩ := f
  cases copy <;> rfl

/-- The frame after further bytes: what it has received, and what has been sent by its copy. -/
theorem frameAfter_eq {reply : FrameCopy → List Byte} (hx : ∀ f y, f.copy = some y → x.reply f = reply y) (s : State)
    (p : Port) (bs : List Byte) :
    s.frameAfter x p bs = { s.openFrame p with
      copy := some (s.copyFor p (s.openFrame p)), received := (s.openFrame p).received ++ bs,
      sent := (s.openFrame p).sentAfter (reply (s.copyFor p (s.openFrame p))) bs.length } := by
  unfold State.frameAfter
  dsimp only
  rw [← openFrame_eq, kindByte_eq, hx _ _ rfl]
  rfl

/-- Bytes exchanged in two pieces are the bytes exchanged in one. -/
theorem exchange_append (f : OpenFrame) (reply bs cs : List Byte) :
    (f.exchange reply bs).exchange reply cs = f.exchange reply (bs ++ cs) := by
  simp [OpenFrame.exchange, List.range_add, Nat.add_assoc]

theorem kindByte_of_copy {f : OpenFrame} {y : FrameCopy} (h : f.copy = some y) (s : State) (p : Port) : s.kindByte p f = f := by
  simp [State.kindByte, h]

theorem kindByte_copy (s : State) (p : Port) (f : OpenFrame) : (s.kindByte p f).copy = some (s.copyFor p f) := by
  rw [kindByte_eq]

/-- A frame that stands open after `bs` and gets `cs` is the frame that gets both. -/
theorem frameAfter_append (hx : x.ByCopy) (s : State) (p : Port) (bs cs : List Byte) :
    (s.setPort p { s.port p with frame := some (s.frameAfter x p bs) }).frameAfter x p cs = s.frameAfter x p (bs ++ cs) := by
  let f := s.kindByte p (s.frameOf p)
  have copied : (f.exchange (x.reply f) bs).copy = some (s.copyFor p (s.frameOf p)) := kindByte_copy s p _
  have same : x.reply (f.exchange (x.reply f) bs) = x.reply f := hx _ _ rfl
  have open_ : (s.setPort p { s.port p with frame := some (f.exchange (x.reply f) bs) }).frameOf p =
      f.exchange (x.reply f) bs := by
    simp [State.frameOf]
  change ((s.setPort p { s.port p with frame := some (f.exchange (x.reply f) bs) })).frameAfter x p cs =
    f.exchange (x.reply f) (bs ++ cs)
  unfold State.frameAfter
  dsimp only
  rw [open_, kindByte_of_copy copied, same, exchange_append]

/-- The end of a frame reads the state with the frame over. -/
theorem endFrame_congr {f : OpenFrame} (h : t.closeFrame p f = s.closeFrame p f) : t.endFrame x p f = s.endFrame x p f := by
  unfold State.endFrame
  rw [h]

theorem transfer_on (h : s.retention.phase ≠ .off) (e : FrameEvent) : transfer x p e s = .next (s.frameEvent x p e) :=
  congrArg _ (if_neg h)

theorem transfer_off (h : s.retention.phase = .off) (e : FrameEvent) : transfer x p e s = .next (s.deadFrameEvent p e) :=
  congrArg _ (if_pos h)

theorem transfer_pieces (hx : x.ByCopy) {bs : List Byte} (cs : List Byte) (h : transfer x p (.bytes bs) s = .next t) :
    transfer x p (.rises cs) t = transfer x p (.rises (bs ++ cs)) s := by
  by_cases hp : s.retention.phase = .off
  · rw [transfer_off hp] at h
    cases h
    rw [transfer_off hp, transfer_off (show (s.deadFrameEvent p (.bytes bs)).retention.phase = .off from hp)]
    simp [State.deadFrameEvent]
  · rw [transfer_on hp] at h
    cases h
    rw [transfer_on hp, transfer_on (show (s.frameEvent x p (.bytes bs)).retention.phase ≠ .off from hp)]
    simp only [State.frameEvent, frameAfter_append hx]
    exact congrArg _ (endFrame_congr (by simp [State.closeFrame]))

/-! ## What was sent -/

/-- The record of what port `p` sent in its last frame, put to `z`. -/
def State.resend (s : State) (p : Port) (z : List Byte) : State := s.setPort p { s.port p with sent := z }

@[simp] theorem resend_port_same (s : State) (p : Port) (z : List Byte) :
    (s.resend p z).port p = { s.port p with sent := z } :=
  State.setPort_port_same _ _ _

theorem resend_port_ne {q : Port} (s : State) (z : List Byte) (h : q ≠ p) : (s.resend p z).port q = s.port q :=
  State.setPort_port_ne _ _ _ _ h

@[simp] theorem resend_setPort (s : State) (p : Port) (z : List Byte) (u : PortUnit) :
    (s.resend p z).setPort p u = s.setPort p u :=
  State.setPort_setPort _ _ _ _

@[simp] theorem setPort_resend (s : State) (p : Port) (z : List Byte) (u : PortUnit) :
    (s.setPort p u).resend p z = s.setPort p { u with sent := z } := by
  simp [State.resend]

theorem withPorts_congr {u v : Ports} (h : ∀ q, u.get q = v.get q) : s.withPorts u = s.withPorts v := by
  rw [Ports.ext_get h]

/-- Setting notes does not look at what was sent. -/
theorem setNotes_resend (s : State) (p : Port) (z : List Byte) (v : BitVec 4) :
    (s.resend p z).setNotes p v = (s.setNotes p v).resend p z := by
  rw [setNotes_eq (s.resend p z), State.resend, State.resend, State.setPort, State.setPort]
  rw [show (s.setNotes p v).withPorts = s.withPorts from by rw [setNotes_eq]; rfl]
  refine withPorts_congr fun q => ?_
  change ((s.resend p z).setNotes p v).port q = ((s.setNotes p v).resend p z).port q
  by_cases hq : q = p
  · subst hq
    simp [setNotes_port]
  · simp [setNotes_port, hq, resend_port_ne]

/-- An act that does not look at what was sent before. -/
def Blind (p : Port) (act : State → State × LastResult) : Prop :=
  ∀ s z, act (s.resend p z) = ((act s).1.resend p z, (act s).2)

theorem blind_idle (r : LastResult) : Blind p fun s => (s, r) := fun _ _ => rfl

theorem accept_resend (s : State) (p : Port) (z : List Byte) (r : Request) :
    (s.resend p z).accept p r = (s.accept p r).resend p z := by
  cases h : portCheck p r <;> simp [accept_eq, h]

theorem postAct_blind (f : OpenFrame) : Blind p (postAct p f) := fun s z => by
  by_cases hl : 248 < (f.received.getD 3 0).toNat
  · rw [postAct_badLength hl, postAct_badLength hl]
  · by_cases hs : (s.port p).slot = .empty
    · rw [postAct_accepts (Nat.not_lt.1 hl) hs, postAct_accepts (Nat.not_lt.1 hl) (by simpa using hs), accept_resend]
    · rw [postAct_busy (Nat.not_lt.1 hl) hs, postAct_busy (Nat.not_lt.1 hl) (by simpa using hs)]

theorem withdrawAct_blind (f : OpenFrame) : Blind p (withdrawAct p f) := fun s z => by
  cases hs : (s.port p).slot <;> simp [withdrawAct, hs]

theorem fetchAct_blind (f : OpenFrame) : Blind p (fetchAct p f) := fun s z => by
  cases ha : f.answer with
  | none => simp [fetchAct, ha]
  | some a => cases hs : (s.port p).slot <;> simp [fetchAct, ha, hs, State.enterBuffer, PortUnit.raise]

theorem noteAct_blind (f : OpenFrame) : Blind p (noteAct p f) := fun s z => by
  simp only [noteAct, setNotes_resend]

theorem ackAct_blind (f : OpenFrame) : Blind p (ackAct p f) := fun s z => by simp [ackAct]

theorem maskAct_blind (f : OpenFrame) : Blind p (maskAct p f) := fun s z => by simp [maskAct]

theorem portResetAct_blind (f : OpenFrame) : Blind p (portResetAct p f) := fun s z => by
  let u : PortUnit :=
    { s.port p with slot := .empty, buffer := none, pending := 0, enabled := defaultEnable p, errors := 0 }
  have notes : (s.setPort p { u with sent := z }).setNotes p 0 = ((s.setPort p u).setNotes p 0).resend p z := by
    rw [← setNotes_resend, setPort_resend]
  have reset : portResetAct p f (s.resend p z) =
      (((s.setPort p { u with sent := z }).setNotes p 0).withClaims (s.claims.map (ClaimRecord.freeFor p)), .ok) := by
    unfold portResetAct
    dsimp only
    rw [resend_setPort, resend_port_same]
    rfl
  rw [reset, notes]
  rfl

/-! ## The transfers that send -/

/-- What a frame command of R2 is: a transfer whose reply the copy alone decides, which acts on the bytes received, for FETCH on
the answer copied too, and does not look at what was sent. -/
structure SentBy (p : Port) (c : FrameEvent → Instr) (reply : FrameCopy → List Byte) (x : Transfer) : Prop where
  exec : ∀ e s, exec (c e) s = transfer x p e s
  reply : ∀ f y, f.copy = some y → x.reply f = reply y
  frame : ∀ f g : OpenFrame, f.received = g.received → (c = .fetch p → f.answer = g.answer) →
    x.declared f = x.declared g ∧ x.act f = x.act g
  blind : ∀ f, Blind p (x.act f)
  fetch : c = .fetch p → x = fetchTransfer p

theorem fetch_sentBy (p : Port) : SentBy p (.fetch p)
    (fun y => match y.buffer with | some a => BitVec.ofNat 8 a.bytes.length :: a.bytes | none => [0]) (fetchTransfer p) where
  exec _ _ := rfl
  reply f y h := by simp only [fetchReply, OpenFrame.answer, h]; rfl
  frame f g _ h := by
    have same := h rfl
    exact ⟨by simp only [fetchReply, same], by funext s; simp only [fetchAct, same]⟩
  blind := fetchAct_blind
  fetch _ := rfl

/-- A transfer without a reply whose act reads the bytes received. -/
theorem plain_sentBy {c : FrameEvent → Instr} {declared : OpenFrame → Option Nat}
    {act : OpenFrame → State → State × LastResult}
    (hc : ∀ e s, Machine.exec (c e) s = transfer { declared := declared, reply := fun _ => [], act := act } p e s)
    (hf : ∀ f g : OpenFrame, f.received = g.received → declared f = declared g ∧ act f = act g)
    (hb : ∀ f, Blind p (act f)) (hn : c .falls ≠ .fetch p .falls) :
    SentBy p c (fun _ => []) { declared := declared, reply := fun _ => [], act := act } :=
  ⟨hc, fun _ _ _ => rfl, fun f g h _ => hf f g h, hb, fun h => absurd (congrFun h .falls) hn⟩

theorem sends_sentBy {c : FrameEvent → Instr} {reply : FrameCopy → List Byte} (h : Sends p c reply) :
    ∃ x, SentBy p c reply x := by
  rcases h with ⟨rfl, rfl⟩ | ⟨rfl, rfl⟩ | ⟨rfl | rfl | rfl | rfl | rfl | rfl | ⟨kind, hk, rfl⟩, rfl⟩
  · exact ⟨_, fetch_sentBy p⟩
  · exact ⟨peekTransfer, fun _ _ => rfl, fun f y h => by simp [peekReply, h], fun _ _ _ _ => ⟨rfl, rfl⟩,
      fun _ => blind_idle _, fun h => nomatch congrFun h .falls⟩
  · exact ⟨_, plain_sentBy (fun _ _ => rfl)
      (fun f g h => ⟨by simp only [postDeclared, h], by funext s; simp only [postAct, h]⟩) postAct_blind nofun⟩
  · exact ⟨_, plain_sentBy (fun _ _ => rfl) (fun _ _ _ => ⟨rfl, rfl⟩) withdrawAct_blind nofun⟩
  · exact ⟨_, plain_sentBy (fun _ _ => rfl) (fun f g h => ⟨rfl, by funext s; simp only [noteAct, h]⟩) noteAct_blind nofun⟩
  · exact ⟨_, plain_sentBy (fun _ _ => rfl) (fun f g h => ⟨rfl, by funext s; simp only [ackAct, causeSetOf, h]⟩)
      ackAct_blind nofun⟩
  · exact ⟨_, plain_sentBy (fun _ _ => rfl) (fun f g h => ⟨rfl, by funext s; simp only [maskAct, causeSetOf, h]⟩)
      maskAct_blind nofun⟩
  · exact ⟨_, plain_sentBy (fun _ _ => rfl) (fun _ _ _ => ⟨rfl, rfl⟩) portResetAct_blind nofun⟩
  · exact ⟨_, plain_sentBy (act := fun _ t => (t, .badTransfer)) (fun _ _ => if_pos hk) (fun _ _ _ => ⟨rfl, rfl⟩)
      (fun _ => blind_idle _) nofun⟩

/-- Two ends of frames that differ in what was sent alone, and in a copy that the act does not read. -/
theorem endFrame_resend {f g : OpenFrame} (hd : x.declared f = x.declared g) (ha : x.act f = x.act g)
    (hb : ∀ f, Blind p (x.act f)) (hr : f.received = g.received) (hf : f.cut = false) (hg : g.cut = false)
    (hs : t = s.setPort p { s.port p with frame := none }) :
    s.endFrame x p f = (t.endFrame x p g).resend p f.sent := by
  have closed : s.closeFrame p f = (t.closeFrame p g).resend p f.sent := by
    subst hs
    simp [State.closeFrame]
  have complete : isComplete x f = isComplete x g := by simp only [isComplete, hd, hr]
  unfold State.endFrame
  rw [hf, hg, complete, closed, ha]
  cases isComplete x g
  · simp [State.shortFrame]
  · have last (u : State) (r : LastResult) : (u.resend p f.sent).setLast p r = (u.setLast p r).resend p f.sent := by
      simp [State.setLast]
    simp [hb g (t.closeFrame p g) f.sent, last]

/-- The end of a frame in progress does what the whole frame of its bytes would do now, but for what is sent; a FETCH does where
the answer it copied is the one in the buffer. -/
theorem rises_resend {c : FrameEvent → Instr} {reply : FrameCopy → List Byte} (hx : SentBy p c reply x)
    (hp : s.retention.phase = .running) (hcut : (s.openFrame p).cut = false) (bs : List Byte)
    (hy : c = .fetch p → (s.copyFor p (s.openFrame p)).buffer = (s.port p).buffer)
    (ht : transfer x p (.rises ((s.openFrame p).received ++ bs)) (s.setPort p { s.port p with frame := none }) = .next t) :
    transfer x p (.rises bs) s = .next (t.resend p
      ((s.openFrame p).sentAfter (reply (s.copyFor p (s.openFrame p))) bs.length)) := by
  let u := s.setPort p { s.port p with frame := none }
  let whole := u.frameAfter x p ((s.openFrame p).received ++ bs)
  have opened : u.openFrame p = u.newFrame p := by
    simp [openFrame_eq, State.frameOf, u]
  have whole_eq : whole = _ := frameAfter_eq hx.reply u p ((s.openFrame p).received ++ bs)
  rw [opened] at whole_eq
  have piece_eq := frameAfter_eq hx.reply s p bs
  have received : (s.frameAfter x p bs).received = whole.received := by
    rw [piece_eq, whole_eq]
    exact (List.nil_append _).symm
  have answer : c = .fetch p → (s.frameAfter x p bs).answer = whole.answer := fun h => by
    rw [piece_eq, whole_eq]
    exact (hy h).trans (by simp [OpenFrame.answer, State.copyFor, State.newFrame, u])
  have cut : (s.frameAfter x p bs).cut = false := by rw [piece_eq]; exact hcut
  have whole_cut : whole.cut = false := by rw [whole_eq]; exact decide_eq_false fun h => h hp
  have sent : (s.frameAfter x p bs).sent =
      (s.openFrame p).sentAfter (reply (s.copyFor p (s.openFrame p))) bs.length := by rw [piece_eq]
  have on : s.retention.phase ≠ .off := by rw [hp]; nofun
  obtain ⟨hd, ha⟩ := hx.frame _ _ received answer
  rw [transfer_on (show u.retention.phase ≠ .off from on)] at ht
  cases ht
  rw [transfer_on on, ← sent]
  exact congrArg _ (endFrame_resend hd ha hx.blind received cut whole_cut rfl)

/-- The end of a FETCH that copied an empty buffer: nothing acts (R8). -/
theorem endFrame_fetch_empty {f : OpenFrame} (ha : f.answer = none) (hcut : f.cut = false) :
    s.endFrame (fetchTransfer p) p f = s.setPort p { (if f.received = [] then { s.port p with
        errors := if (s.port p).errors < 255 then (s.port p).errors + 1 else 255, last := .frameShort }
      else { s.port p with last := .ok } : PortUnit) with frame := none, sent := f.sent } := by
  have complete : isComplete (fetchTransfer p) f = decide (f.received ≠ []) := by
    cases h : f.received <;> simp [isComplete, fetchReply, ha, h]
  unfold State.endFrame
  rw [hcut, complete]
  by_cases h : f.received = []
  · simp [h, State.shortFrame, satInc_max8]
  · simp [h, fetchAct, ha, State.setLast]

end Sys2Proof.Machine

open Sys2Proof Sys2Proof.Machine in
/-- Settles O12: the pieces of a frame, and what its end does by the copy and the bytes it holds. -/
theorem framePiecesJoin : Obligations.FramePiecesJoin := by
  unfold Obligations.FramePiecesJoin
  constructor
  · intro p c bs cs s t hc h
    rcases isTransfer_exec hc with ⟨x, hx, he⟩ | he
    · rw [he] at h ⊢
      rw [he]
      exact transfer_pieces hx cs h
    · rw [he] at h ⊢
      cases h
      rw [he]
  · intro p c reply bs s hc f y sent withFrame closed
    obtain ⟨x, hx⟩ := sends_sentBy hc
    have after : s.frameAfter x p bs = { f with copy := some y, received := f.received ++ bs, sent := sent } :=
      frameAfter_eq hx.reply s p bs
    simp only [hx.exec]
    refine ⟨fun hp => ⟨fun hf => ?_, ?_, ?_, fun hcut => ?_⟩, fun hp hcut => ⟨fun t hy ht => ?_, fun hcf hy => ?_⟩,
      fun hp => ?_⟩
    · have new : f = s.newFrame p := (openFrame_eq s p).trans (by simp [State.frameOf, hf])
      simp only [transfer, if_neg hp, State.frameEvent, withFrame, new]
    · simp only [transfer, if_neg hp, State.frameEvent, withFrame, after]
    · simp only [transfer, if_neg hp, State.frameEvent, withFrame]
    · simp only [transfer, if_neg hp, State.frameEvent, after, State.endFrame, hcut]
      rfl
    · exact rises_resend hx hp hcut bs hy (by rw [← hx.exec] at ht ⊢; exact ht)
    · have on : s.retention.phase ≠ .off := by rw [hp]; nofun
      rw [transfer_on on]
      simp only [State.frameEvent, after]
      rw [hx.fetch hcf]
      exact congrArg _ (endFrame_fetch_empty hy hcut)
    · have same : s.frameOf p = f := (openFrame_eq s p).symm
      simp only [transfer, if_pos hp, State.deadFrameEvent, same, withFrame, and_self]

end

section
/-! SUPPORT. The bytes of numbers, of the status byte and record, and of answer records (R3, R10, R11, R21, R22). -/

namespace Sys2Proof.Machine

/-! ## Numbers in bytes -/

/-- Byte `k` of a bit vector, counted from the least significant. -/
theorem extract_byte {m : Nat} (x : BitVec m) (low : Nat) :
    x.extractLsb' low 8 = BitVec.ofNat 8 (x.toNat / 2 ^ low) := by
  apply BitVec.eq_of_toNat_eq
  simp [Nat.shiftRight_eq_div_pow]

theorem beBytes_one (n : Nat) : beBytes 1 n = [BitVec.ofNat 8 n] := rfl

theorem beBytes_two {m : Nat} (x : BitVec m) : beBytes 2 x.toNat = [x.extractLsb' 8 8, x.extractLsb' 0 8] := by
  simp [beBytes, extract_byte]

theorem beBytes_three {m : Nat} (x : BitVec m) :
    beBytes 3 x.toNat = [x.extractLsb' 16 8, x.extractLsb' 8 8, x.extractLsb' 0 8] := by
  simp [beBytes, extract_byte, Nat.div_div_eq_div_mul]

/-- The four bytes of a number are those of its low 32 bits. -/
theorem beBytes_four (n : Nat) :
    beBytes 4 n = [24, 16, 8, 0].map fun low => (BitVec.ofNat 32 n).extractLsb' low 8 := by
  have byte (low : Nat) (h : low ∈ [24, 16, 8, 0]) :
      (BitVec.ofNat 32 n).extractLsb' low 8 = BitVec.ofNat 8 (n / 2 ^ low) := by
    rw [extract_byte]
    apply BitVec.eq_of_toNat_eq
    simp only [List.mem_cons, List.not_mem_nil, or_false] at h
    simp only [BitVec.toNat_ofNat]
    rcases h with rfl | rfl | rfl | rfl <;> omega
  simp only [List.map_cons, List.map_nil, byte _ (by simp : 24 ∈ [24, 16, 8, 0]), byte _ (by simp : 16 ∈ [24, 16, 8, 0]),
    byte _ (by simp : 8 ∈ [24, 16, 8, 0]), byte _ (by simp : 0 ∈ [24, 16, 8, 0])]
  simp [beBytes, Nat.div_div_eq_div_mul]

theorem length_beBytes : ∀ w n : Nat, (beBytes w n).length = w
  | 0, _ => rfl
  | w + 1, n => by simp [beBytes, length_beBytes w]

/-- Byte `i` of a number of `w` bytes, the most significant first. -/
theorem getElem?_beBytes : ∀ (w n i : Nat), i < w → (beBytes w n)[i]? = some (BitVec.ofNat 8 (n / 256 ^ (w - 1 - i)))
  | w + 1, n, i, h => by
    unfold beBytes
    by_cases hi : i < w
    · rw [List.getElem?_append_left (by rw [length_beBytes]; exact hi), getElem?_beBytes w _ i hi, Nat.div_div_eq_div_mul,
        ← Nat.pow_succ', show (w - 1 - i).succ = w + 1 - 1 - i by omega]
    · have e : i = w := by omega
      subst e
      simp [length_beBytes]

/-! ## The status byte and the status record -/

theorem slot_code_bits (x : Slot) :
    (match x with | .empty => 0 | .posted _ => 1 | .taken _ => 2 | .doneWaiting _ => 3 : BitVec 2) = BitVec.ofNat 2 x.code := by
  cases x <;> rfl

theorem last_code_bits (x : LastResult) :
    (match x with
      | .blank => 0 | .ok => 1 | .slotBusy => 2 | .tooLate => 3 | .none => 4 | .badTransfer => 5 | .badLength => 6
      | .frameShort => 7 : BitVec 3) = BitVec.ofNat 3 x.code := by
  cases x <;> rfl

theorem slot_code_lt (x : Slot) : x.code < 4 := by cases x <;> simp [Slot.code]

theorem last_code_lt (x : LastResult) : x.code < 8 := by cases x <;> decide

theorem hasStaged_bits (x : Slot) : (match x with | .doneWaiting _ => true | _ => false) = x.hasStaged := by cases x <;> rfl

theorem warm_bits (k : StartKind) : decide (k = .warm) = k.isWarm := by cases k <;> rfl

theorem attention_eq (u : PortUnit) : u.attention = decide (u.pending ≠ 0) := by
  rw [Bool.eq_iff_iff]
  simp [PortUnit.attention]

theorem status_bits : ∀ (a : Fin 4) (b c d : Bool) (e : Fin 8),
    BitVec.ofNat 8 (a.val * 64 + bitAt b 5 + bitAt c 4 + bitAt d 3 + e.val) =
      BitVec.ofNat 2 a.val ++ BitVec.ofBool b ++ BitVec.ofBool c ++ BitVec.ofBool d ++ BitVec.ofNat 3 e.val := by
  decide

theorem slot_bits : ∀ a : Fin 4, BitVec.ofNat 8 a.val = (0 : BitVec 6) ++ BitVec.ofNat 2 a.val := by decide

theorem flag_bits : ∀ a b c d : Bool, BitVec.ofNat 8 (bitAt a 0 + bitAt b 1 + bitAt c 2 + bitAt d 3) =
    (0 : BitVec 4) ++ BitVec.ofBool d ++ BitVec.ofBool c ++ BitVec.ofBool b ++ BitVec.ofBool a := by
  decide

/-- Two flags of four bits in a byte. -/
theorem notes_bits (a b : BitVec 4) : BitVec.ofNat 8 (a.toNat * 16 + b.toNat) = a ++ b := by
  revert a b
  decide

theorem notes_alone (a : BitVec 4) : BitVec.ofNat 8 a.toNat = (0 : BitVec 4) ++ a := by
  simpa using notes_bits 0 a

/-- The bits of the status byte (R3, R21). -/
theorem statusByte_eq (s : State) (p : Port) :
    s.statusByte p = BitVec.ofNat 2 (s.port p).slot.code ++ BitVec.ofBool (s.port p).buffer.isSome ++
      BitVec.ofBool (s.port p).attention ++ BitVec.ofBool s.retention.startKind.isWarm ++
      BitVec.ofNat 3 (s.port p).last.code :=
  status_bits ⟨_, slot_code_lt _⟩ _ _ _ ⟨_, last_code_lt _⟩

/-- The fifteen bytes of the status record (R11, R21). -/
theorem statusRecord_eq (s : State) (p : Port) :
    s.statusRecord p =
      [(0 : BitVec 6) ++ BitVec.ofNat 2 (s.port p).slot.code,
        (0 : BitVec 4) ++ BitVec.ofBool s.clock.isSet ++ BitVec.ofBool s.retention.startKind.isWarm ++
          BitVec.ofBool (s.port p).slot.hasStaged ++ BitVec.ofBool (s.port p).buffer.isSome] ++
      beBytes 3 (s.port p).pending.toNat ++ beBytes 3 (s.port p).enabled.toNat ++
      [(s.port .P).notes ++ (s.port .K).notes, (0 : BitVec 4) ++ (s.port .Y).notes, BitVec.ofNat 8 (s.port p).errors] ++
      beBytes 4 s.clock.minutes := by
  unfold State.statusRecord
  rw [slot_bits ⟨_, slot_code_lt _⟩, flag_bits, notes_bits, notes_alone]
  rfl

theorem length_statusRecord (s : State) (p : Port) : (s.statusRecord p).length = 15 := by
  simp [State.statusRecord, length_beBytes]

/-! ## Items of an answer -/

/-- A signed number in two's complement (R22). -/
theorem unsignedOf_eq (w : Nat) (v : Int) : unsignedOf w v = (BitVec.ofInt (8 * w) v).toNat := by
  simp [unsignedOf, BitVec.toNat_ofInt]

theorem pair_toNat (dry depression : BitVec 12) :
    dry.toNat * 4096 + depression.toNat = (dry ++ depression : BitVec 24).toNat := by
  rw [BitVec.toNat_append, ← Nat.shiftLeft_add_eq_or_of_lt depression.isLt, Nat.shiftLeft_eq]

/-! ## FETCH -/

variable {s : State} {p : Port} {bs : List Byte}

/-- A whole FETCH of an answer, where no further one is staged. -/
theorem fetchAct_empties {f : OpenFrame} {a : Answer} (ha : f.answer = some a) (hs : (s.port p).slot.hasStaged = false) :
    fetchAct p f s = (s.setPort p { s.port p with buffer := none }, .ok) := by
  unfold fetchAct
  rw [ha]
  cases h : (s.port p).slot with
  | doneWaiting b => rw [h] at hs; cases hs
  | _ => rfl

theorem isComplete_fetch {a : Answer} {reply : List Byte} (h : (s.port p).buffer = some a)
    (hn : 1 + a.bytes.length ≤ bs.length) : isComplete (fetchTransfer p) (s.wholeFrame p reply bs) = true := by
  simp [isComplete, fetchReply_some h]
  omega

end Sys2Proof.Machine

open Sys2Proof Sys2Proof.Machine in
/-- Settles O6: the frames of FETCH and PEEK by the buffer and the slot, and the bytes by the lemmas above. -/
theorem fetchAndPeekSendWhatTheyRead : Obligations.FetchAndPeekSendWhatTheyRead := by
  unfold Obligations.FetchAndPeekSendWhatTheyRead
  refine ⟨fun p bs s hq => ⟨fun a ha hn hs => ?_, fun a b ha hn hs => ?_, fun hb hn => ?_, fun hn => ?_⟩,
    fun p s => ?_, fun kind tag => ⟨fun body => ?_, fun e => ?_⟩,
    fun w n => ⟨length_beBytes w n, getElem?_beBytes w n⟩, fun w n v => ⟨rfl, ?_⟩, fun t => rfl, fun b => rfl,
    fun dry depression => ?_⟩
  · exact transfer_framed (x := fetchTransfer p) hq (fetchReply_some ha [] []) (isComplete_fetch ha hn)
      ((fetchAct_empties (f := s.wholeFrame p _ bs) ha (by simpa using hs)).trans (by simp))
  · exact transfer_framed (x := fetchTransfer p) hq (fetchReply_some ha [] []) (isComplete_fetch ha hn)
      (by simp [fetchAct, wholeFrame_answer, ha, hs, State.enterBuffer, PortUnit.raise, Cause.bit, Cause.number])
  · exact transfer_unchanged (x := fetchTransfer p) hq (fetchReply_none hb [] [])
      (by simp [isComplete, fetchReply_none hb]; omega) (by simp [fetchAct, wholeFrame_answer, hb])
  · exact transfer_unchanged (x := peekTransfer) hq rfl (by simp [isComplete]; omega) rfl
  · intro u slot last answer staged alert warm minutes
    have hslot : BitVec.ofNat 2 (s.port p).slot.code = slot := (slot_code_bits _).symm
    have hlast : BitVec.ofNat 3 (s.port p).last.code = last := (last_code_bits _).symm
    have hwarm : BitVec.ofBool s.retention.startKind.isWarm = warm := congrArg _ (warm_bits _).symm
    have hstaged : BitVec.ofBool (s.port p).slot.hasStaged = staged := congrArg _ (hasStaged_bits _).symm
    have halert : BitVec.ofBool (s.port p).attention = alert := congrArg _ (attention_eq _)
    constructor
    · rw [statusByte_eq, hslot, hlast, hwarm, halert]
    · rw [statusRecord_eq, beBytes_three, beBytes_three, beBytes_four, hslot, hwarm, hstaged]
      rfl
  · simp only [Answer.bytes, beBytes_two, bodyOf]
    rfl
  · simp only [Answer.bytes, beBytes_two]
    cases e with
    | heldBy q seized => cases q <;> rfl
    | noSuchSequence n => simp only [Reason.detail, beBytes_four]; rfl
    | _ => rfl
  · simp only [Field.bytes, unsignedOf_eq]
  · simp only [Field.bytes, pair_toNat, beBytes_three]
    rfl

end

section
/-! SUPPORT. The three checks of POST (R5): the kinds, the ports that may carry each, and the kiln field. -/

namespace Sys2Proof.Machine

/-- The codes of section 1.10. -/
abbrev KnownCode (code : Nat) : Prop :=
  (0x01 ≤ code ∧ code ≤ 0x03) ∨ (0x10 ≤ code ∧ code ≤ 0x17) ∨ (0x20 ≤ code ∧ code ≤ 0x26) ∨
    (0x30 ≤ code ∧ code ≤ 0x36) ∨ (0x40 ≤ code ∧ code ≤ 0x49) ∨ (0x50 ≤ code ∧ code ≤ 0x52) ∨
    (0x60 ≤ code ∧ code ≤ 0x63) ∨ (0x70 ≤ code ∧ code ≤ 0x73) ∨ (0x80 ≤ code ∧ code ≤ 0x82) ∨
    (0x90 ≤ code ∧ code ≤ 0x92)

/-- The codes that the table of R5 closes to a port. -/
def closedCodes : Port → List Nat
  | .K => [0x45, 0x03, 0x92, 0x82, 0x62, 0x24, 0x51, 0x50, 0x61, 0x81]
  | .P => [0x30, 0x26, 0x20, 0x21, 0x03, 0x92, 0x82, 0x62, 0x24, 0x51, 0x50, 0x61, 0x81]
  | .Y => [0x30, 0x26, 0x45]

theorem row_known : ∀ row ∈ requestKinds, KnownCode row.1 := by decide

theorem known_row : ∀ code < 0x93, KnownCode code → code ∈ requestKinds.map Prod.fst := by decide

theorem row_allows (p : Port) : ∀ row ∈ requestKinds, row.2.testBit (portBit p) = !(closedCodes p).contains row.1 := by
  cases p <;> decide

/-- The row of a kind is one of the table under its code. -/
theorem find_row {n : Nat} {row : Nat × Nat} (h : (requestKinds.find? fun row => row.1 == n) = some row) :
    row ∈ requestKinds ∧ row.1 = n :=
  ⟨List.mem_of_find?_eq_some h, by simpa using List.find?_some h⟩

/-- A kind has a row exactly when it is one of section 1.10. -/
theorem find_row_none {n : Nat} : (requestKinds.find? fun row => row.1 == n) = none ↔ ¬KnownCode n := by
  constructor
  · intro h known
    have hn : n < 0x93 := by omega
    obtain ⟨row, hrow, e⟩ := List.mem_map.1 (known_row n hn known)
    exact (List.find?_eq_none.1 h) row hrow (by simp [e])
  · intro unknown
    refine List.find?_eq_none.2 fun row hrow e => unknown ?_
    have := row_known row hrow
    rwa [show row.1 = n by simpa using e] at this

/-! ## The kiln field -/

theorem readBytes_ok {w : Nat} {a b : List Byte} (h : a.length = w) (i : Nat) :
    readBytes w { rest := a ++ b, index := i } = .ok (a, { rest := b, index := i + 1 }) := by
  subst h
  simp [readBytes]

/-- A number that fills the bytes it is read from. -/
theorem readNatIf_bytes {w : Nat} {ok : Nat → Bool} {a b : List Byte} (h : a.length = w) (i : Nat) :
    readNatIf w ok { rest := a ++ b, index := i } =
      if ok (beNat a) then .ok (beNat a, { rest := b, index := i + 1 }) else .error i := by
  simp only [readNatIf, readBytes_ok h]

theorem beNat_one (n : Byte) : beNat [n] = n.toNat := by simp [beNat]

/-- Field 1 of a kiln request names a kiln of 1 to 12, or is bad (R5). -/
theorem readKiln_named {n : Byte} (rest : List Byte) (h : 1 ≤ n.toNat ∧ n.toNat ≤ 12) :
    readKiln (fieldsOf (n :: rest)) = .ok (kilnOfNumber n.toNat, { rest := rest, index := 2 }) := by
  have read := readNatIf_bytes (w := 1) (ok := fun n => decide (1 ≤ n) && decide (n ≤ 12)) (a := [n]) (b := rest) rfl 1
  simp only [readKiln, readNat, fieldsOf]
  rw [show n :: rest = [n] ++ rest from rfl, read]
  simp [beNat_one, h]

theorem readKiln_unnamed {body : List Byte} (h : ¬∃ n rest, body = n :: rest ∧ 1 ≤ n.toNat ∧ n.toNat ≤ 12) :
    readKiln (fieldsOf body) = .error 1 := by
  cases body with
  | nil => rfl
  | cons n rest =>
    have out : ¬(1 ≤ n.toNat ∧ n.toNat ≤ 12) := fun hn => h ⟨n, rest, rfl, hn⟩
    have read := readNatIf_bytes (w := 1) (ok := fun n => decide (1 ≤ n) && decide (n ≤ 12)) (a := [n]) (b := rest) rfl 1
    simp only [readKiln, readNat, fieldsOf]
    rw [show n :: rest = [n] ++ rest from rfl, read]
    simp [beNat_one, out]

/-! ## The checks in their order -/

variable {p : Port} {r : Request}

theorem portCheck_badKind (h : ¬KnownCode r.kind.toNat) : portCheck p r = some .badKind := by
  simp only [portCheck, find_row_none.2 h]

/-- A kind that is known: the port check, and then the kiln field. -/
theorem portCheck_known (h : KnownCode r.kind.toNat) :
    portCheck p r = if (closedCodes p).contains r.kind.toNat then some .wrongPort
      else if isKilnRequest r.kind.toNat then
        (match readKiln (fieldsOf r.body) with
        | .ok _ => none
        | .error _ => some (.badField 1))
      else none := by
  obtain ⟨row, hrow⟩ := Option.ne_none_iff_exists'.1 fun e => find_row_none.1 e h
  obtain ⟨mem, code⟩ := find_row hrow
  have allows := row_allows p row mem
  rw [code] at allows
  simp only [portCheck, hrow, allows, Bool.not_not] <;> rfl

end Sys2Proof.Machine

open Sys2Proof Sys2Proof.Machine in
/-- Settles O4: each check by the table, in the order of R5. -/
theorem postChecksKindThenPortThenKiln : Obligations.PostChecksKindThenPortThenKiln := by
  unfold Obligations.PostChecksKindThenPortThenKiln
  intro p r code known allowed ofKiln named
  have open_ : allowed ↔ (closedCodes p).contains code = false := by
    cases p <;> simp [allowed, closedCodes, and_assoc]
  have kiln : ofKiln ↔ isKilnRequest code = true := by simp [ofKiln, isKilnRequest]
  refine ⟨fun hk => portCheck_badKind hk, fun hk ha => ?_, fun hk ha ho hn => ?_, fun hk ha hn => ?_⟩
  · have closed : (closedCodes p).contains code = true := by
      rw [open_] at ha
      simpa using ha
    exact (portCheck_known hk).trans (if_pos closed)
  · rw [portCheck_known hk, if_neg (by rw [open_.1 ha]; nofun), if_pos (kiln.1 ho), readKiln_unnamed hn]
  · rw [portCheck_known hk, if_neg (by rw [open_.1 ha]; nofun)]
    split
    · rename_i ho
      obtain ⟨n, rest, hb, hr⟩ := hn (kiln.2 ho)
      rw [hb, readKiln_named rest hr]
    · rfl

end

section
/-! SUPPORT. Reading back: a body made of a field's bytes is read as the field (R22, R36). -/

namespace Sys2Proof.Machine

@[simp] theorem ok_bind {ε α β : Type} (a : α) (f : α → Except ε β) : (Except.ok a >>= f) = f a := rfl

@[simp] theorem error_bind {ε α β : Type} (e : ε) (f : α → Except ε β) : (Except.error e >>= f) = .error e := rfl

/-! ## Numbers -/

/-- The bytes of a number that fits are read as the number. -/
theorem beNat_beBytes : ∀ {w n : Nat}, n < 256 ^ w → beNat (beBytes w n) = n
  | 0, n, h => by
    simp only [Nat.pow_zero, Nat.lt_one_iff] at h
    rw [h]; rfl
  | w + 1, n, h => by
    have high : n / 256 < 256 ^ w := by
      rw [Nat.pow_succ] at h
      omega
    rw [beBytes, beNat_append_byte, beNat_beBytes high, BitVec.toNat_ofNat]
    omega

theorem readNatIf_beBytes {w n : Nat} {ok : Nat → Bool} (h : ok n = true) (hn : n < 256 ^ w) (rest : List Byte) (i : Nat) :
    readNatIf w ok { rest := beBytes w n ++ rest, index := i } = .ok (n, { rest := rest, index := i + 1 }) := by
  rw [readNatIf_bytes (length_beBytes w n), beNat_beBytes hn, if_pos h]

theorem readNat_beBytes {w lo hi n : Nat} (h : lo ≤ n ∧ n ≤ hi) (hn : n < 256 ^ w) (rest : List Byte) (i : Nat) :
    readNat w lo hi { rest := beBytes w n ++ rest, index := i } = .ok (n, { rest := rest, index := i + 1 }) :=
  readNatIf_beBytes (by simpa using h) hn rest i

theorem readNatOr_beBytes {w lo hi other n : Nat} (h : (lo ≤ n ∧ n ≤ hi) ∨ n = other) (hn : n < 256 ^ w) (rest : List Byte)
    (i : Nat) :
    readNatOr w lo hi other { rest := beBytes w n ++ rest, index := i } = .ok (n, { rest := rest, index := i + 1 }) :=
  readNatIf_beBytes (by simpa using h) hn rest i

/-- A number in two's complement is read back with its sign (R22). -/
theorem signedOf_unsignedOf {w : Nat} {v : Int} (hw : 0 < w) (h : -2 ^ (8 * w - 1) ≤ v ∧ v < 2 ^ (8 * w - 1)) :
    signedOf w (unsignedOf w v) = v := by
  have double : (2 : Int) ^ (8 * w) = 2 * 2 ^ (8 * w - 1) := by
    rw [← pow_succ', show 8 * w - 1 + 1 = 8 * w by omega]
  have cast : ((2 ^ (8 * w - 1) : Nat) : Int) = 2 ^ (8 * w - 1) := by norm_cast
  unfold signedOf unsignedOf
  rw [double]
  generalize 2 ^ (8 * w - 1) = n at cast
  rw [← cast] at h ⊢
  obtain hv | hv := Int.lt_or_le v 0
  · have wrapped : v % (2 * (n : Int)) = v + 2 * n := by
      rw [← Int.add_emod_right, Int.emod_eq_of_lt (by omega) (by omega)]
    rw [wrapped, if_neg (by omega)]
    omega
  · rw [Int.emod_eq_of_lt hv (by omega), if_pos (by omega)]
    omega

theorem unsignedOf_lt (w : Nat) (v : Int) : unsignedOf w v < 256 ^ w := by
  rw [unsignedOf_eq, show (256 : Nat) = 2 ^ 8 from rfl, ← Nat.pow_mul]
  exact BitVec.isLt _

theorem readInt_bytes {w : Nat} {lo hi v : Int} (hw : 0 < w) (h : lo ≤ v ∧ v ≤ hi)
    (hv : -2 ^ (8 * w - 1) ≤ v ∧ v < 2 ^ (8 * w - 1)) (rest : List Byte) (i : Nat) :
    readInt w lo hi { rest := (Field.int w v).bytes ++ rest, index := i } = .ok (v, { rest := rest, index := i + 1 }) := by
  simp only [readInt, Field.bytes, readBytes_ok (length_beBytes w _), beNat_beBytes (unsignedOf_lt w v),
    signedOf_unsignedOf hw hv, if_pos h]

/-! ## Texts and kilns -/

theorem readText_bytes {lo hi : Nat} {t : Text} (h : lo ≤ t.length ∧ t.length ≤ hi) (hh : hi < 256)
    (hp : t.all printable = true) (rest : List Byte) (i : Nat) :
    readText lo hi { rest := (Field.text t).bytes ++ rest, index := i } = .ok (t, { rest := rest, index := i + 1 }) := by
  have len : (BitVec.ofNat 8 t.length).toNat = t.length := by
    rw [BitVec.toNat_ofNat]
    exact Nat.mod_eq_of_lt (by omega)
  simp only [readText, Field.bytes, List.cons_append, len]
  simp [h, hp]

theorem kilnOfNumber_succ (k : KilnNo) : kilnOfNumber (k.val + 1) = k := by
  apply Fin.ext
  simp only [kilnOfNumber, Nat.add_sub_cancel, Fin.ofNat_eq_cast, Fin.val_natCast]
  exact Nat.mod_eq_of_lt k.isLt

theorem readKiln_beBytes (k : KilnNo) (rest : List Byte) (i : Nat) :
    readKiln { rest := beBytes 1 (k.val + 1) ++ rest, index := i } = .ok (k, { rest := rest, index := i + 1 }) := by
  have hk := k.isLt
  simp only [readKiln, readNat_beBytes (w := 1) (lo := 1) (hi := 12) (n := k.val + 1) (by omega) (by omega),
    kilnOfNumber_succ]

/-! ## Bodies of one number -/

theorem readOne_beBytes {w lo hi n : Nat} (h : lo ≤ n ∧ n ≤ hi) (hn : n < 256 ^ w) (rest : List Byte) :
    readOne w lo hi (beBytes w n ++ rest) = .ok n := by
  simp only [readOne, fieldsOf, readNat_beBytes h hn, ok_bind]
  rfl

theorem readResource_beBytes {n : Nat} (h : 1 ≤ n ∧ n ≤ 15) (rest : List Byte) :
    readResource (beBytes 1 n ++ rest) = .ok (resourceOf n) := by
  simp only [readResource, readOne_beBytes (w := 1) h (by omega), ok_bind]
  rfl

theorem resourceOf_kiln (k : KilnNo) : resourceOf (k.val + 1) = .kiln k := by
  have hk := k.isLt
  rw [resourceOf, if_pos (by omega), kilnOfNumber_succ]

theorem readKilnOnly_beBytes (k : KilnNo) (rest : List Byte) : readKilnOnly (beBytes 1 (k.val + 1) ++ rest) = .ok k := by
  simp only [readKilnOnly, fieldsOf, readKiln_beBytes, ok_bind]
  rfl

/-- No month has more than 31 days. -/
theorem monthDays_le (y m : Nat) : monthDays y m ≤ 31 := by
  unfold monthDays
  rw [List.getD_eq_getElem?_getD]
  cases h : (monthLengths y)[m - 1]? with
  | none => exact le_rfl
  | some d =>
    have mem : d ∈ monthLengths y := List.mem_of_getElem? h
    unfold monthLengths at mem
    have feb : (if isLeap y = true then 29 else 28) ≤ 31 := by split <;> omega
    simp only [List.mem_cons, List.not_mem_nil, or_false] at mem
    simp only [Option.getD_some]
    omega

/-- The key of a sort entry, wherever it stands. -/
theorem readSortKey_beBytes {g w b : Nat} (hg : 1 ≤ g ∧ g ≤ 8) (hw : 50 ≤ w ∧ w ≤ 400) (hb : 1 ≤ b ∧ b ≤ 8)
    (rest : List Byte) (i : Nat) :
    readSortKey { rest := beBytes 1 g ++ (beBytes 2 w ++ (beBytes 1 b ++ rest)), index := i } =
      .ok ((g, w, b), { rest := rest, index := i + 1 + 1 + 1 }) := by
  simp (disch := omega) only [readSortKey, readNat_beBytes, ok_bind]
  rfl

end Sys2Proof.Machine

open Sys2Proof Sys2Proof.Machine in
/-- Settles O22: each body field by field. -/
theorem requestBodiesReadBack : Obligations.RequestBodiesReadBack := by
  unfold Obligations.RequestBodiesReadBack
  intro rest
  refine ⟨⟨fun k => ⟨rfl, ?_⟩, rfl, ?_, rfl, ?_, rfl, ?_⟩, ?_, ?_, ?_, ?_, ?_, ?_, ?_, ?_, ?_, ?_⟩
  · have hk := k.isLt
    exact (readResource_beBytes (by omega) rest).trans (congrArg _ (resourceOf_kiln k))
  · exact readResource_beBytes (n := 13) (by omega) rest
  · exact readResource_beBytes (n := 14) (by omega) rest
  · exact readResource_beBytes (n := 15) (by omega) rest
  · intro x hc hl hp hf ho hq
    have offset (r : List Byte) (i : Nat) : readInt 1 (-100) 100 { rest := (Field.int 1 x.offset).bytes ++ r, index := i } =
        .ok (x.offset, { rest := r, index := i + 1 }) := readInt_bytes (by omega) ho (by omega) r i
    simp (disch := omega) only [readSpecies, fieldsOf, List.append_assoc, readNat_beBytes,
      readText_bytes hl (by omega) hp, offset, ok_bind]
    rfl
  · intro sp th v hs ht hv
    simp (disch := omega) only [readDefineCharge, fieldsOf, List.append_assoc, readNat_beBytes, ok_bind]
    rfl
  · intro k id n hi hn
    simp (disch := omega) only [readLoad, fieldsOf, List.append_assoc, readKiln_beBytes, readNat_beBytes, ok_bind]
    rfl
  · intro k id hi
    simp (disch := omega) only [readUnload, fieldsOf, List.append_assoc, readKiln_beBytes, readNat_beBytes, ok_bind]
    rfl
  · intro id wet dry policy hi hw hd hp
    simp (disch := omega) only [readOpenRun, fieldsOf, List.append_assoc, readNat_beBytes, readNatOr_beBytes, ok_bind]
    rfl
  · intro sq g w l hs hg hw hl
    simp (disch := omega) only [readGradeReport, fieldsOf, List.append_assoc, readNat_beBytes, ok_bind]
    rfl
  · intro g w b hg hw hb
    constructor
    · simp only [readSortKeyOnly, fieldsOf, List.append_assoc, readSortKey_beBytes hg hw hb, ok_bind]
      rfl
    · intro n hn
      simp (disch := omega) only [readSortEntry, fieldsOf, List.append_assoc, readSortKey_beBytes hg hw hb, readNat_beBytes,
        ok_bind]
      rfl
  · intro bin v hb hv
    constructor <;> intro hi
    · simp (disch := omega) only [readBinTarget, fieldsOf, List.append_assoc, readNat_beBytes, ok_bind, if_true]
      rfl
    · simp (disch := omega) only [readBinTarget, fieldsOf, List.append_assoc, readNat_beBytes, ok_bind,
        show ¬2 = 1 from nofun, if_false]
      rfl
  · intro y mo d h mi hy hm hd hh hmi
    have days := monthDays_le y mo
    simp (disch := omega) only [readSetClock, fieldsOf, List.append_assoc, readNat_beBytes, ok_bind]
    rfl
  · intro w lo hi n hl hh hn
    exact readOne_beBytes ⟨hl, hh⟩ hn rest

end

section
/-! SUPPORT. The kiln commands (R91 to R95): a change of a kiln and its charge, and the takes that make one. -/

namespace Sys2Proof.Machine

/-- A change that keeps every key changes what is found under the key it is made at. -/
theorem keyFind_keyModify {α : Type} {key : α → Nat} {f : α → α} (hf : ∀ a, key (f a) = key a) (k : Nat) (l : List α) :
    keyFind key k (keyModify key k f l) = (keyFind key k l).map f := by
  have keeps (a : α) : key (if key a = k then f a else a) = key a := by split <;> simp [hf]
  have found : keyFind key k (keyModify key k f l) = (keyFind key k l).map fun a => if key a = k then f a else a := by
    simp only [keyFind, keyModify, List.find?_map, Function.comp_def, keeps]
  rw [found]
  cases h : keyFind key k l with
  | none => rfl
  | some a => simp [keyFind_key h]

section
variable {s t : State} {k : KilnNo} {c : Charge} {x : Schedule} {p : Port} {r : Request}

@[simp] theorem State.writeTrace_charges (s : State) (k : KilnNo) (id : Nat) (kind : TraceKind) :
    (s.writeTrace k id kind).charges = s.charges := by
  rw [State.writeTrace_eq]; rfl

@[simp] theorem State.writeTrace_kilns (s : State) (k : KilnNo) (id : Nat) (kind : TraceKind) :
    (s.writeTrace k id kind).kilns = s.kilns := by
  rw [State.writeTrace_eq]; rfl

@[simp] theorem State.kilnChange_kiln (s : State) (k : KilnNo) (id : Nat) (kl : Kiln) (f : Charge → Charge)
    (kind : TraceKind) : (s.kilnChange k id kl f kind).kiln k = kl := by
  have kilns : (s.kilnChange k id kl f kind).kilns = (s.setKiln k kl).kilns := State.writeTrace_kilns ..
  rw [State.kiln, kilns]
  exact State.setKiln_kiln_same s k kl

theorem State.kilnChange_charge {f : Charge → Charge} (hf : ∀ c, (f c).id = c.id) (s : State) (k : KilnNo) (id : Nat)
    (kl : Kiln) (kind : TraceKind) : (s.kilnChange k id kl f kind).charge id = (s.charge id).map f := by
  have charges : (s.kilnChange k id kl f kind).charges = (s.modifyCharge id f).charges := State.writeTrace_charges ..
  rw [State.charge, charges]
  exact keyFind_keyModify hf id _

/-- The state a kiln shows after a change: the name of its charge's new state. -/
theorem State.kilnChange_kilnState {f : Charge → Charge} {kl : Kiln} (hf : ∀ c, (f c).id = c.id) (hl : kl.link = some c.id)
    (hc : s.charge c.id = some c) (kind : TraceKind) : (s.kilnChange k c.id kl f kind).kilnState k = (f c).state.name := by
  simp [State.kilnState, State.kilnCharge, hl, State.kilnChange_charge hf, hc]

/-! ## The takes -/

theorem Holds.kilnCharge (h : Holds s k c x) : s.kilnCharge k = some c := by
  simp [State.kilnCharge, h.link, h.charge]

theorem Holds.scheduleOf (h : Holds s k c x) : s.scheduleOf c = some x := by
  obtain ⟨n, hn, hx⟩ := h.schedule
  simp [State.scheduleOf, hn, hx]

theorem claimCheck_owns {res : Resource} (h : Owns s p res) : claimCheck res p s = .ok () := by
  simp [claimCheck, require, h]

variable {rule : KilnNo → Charge → Schedule → State → Option State}

/-- An empty kiln refuses every kiln command (section 5.9). -/
theorem kilnCommand_empty (hk : readKilnOnly r.body = .ok k) (ho : Owns s p (.kiln k)) (hl : (s.kiln k).link = none) :
    kilnCommand rule p r s = .error .badState := by
  simp [kilnCommand, fields, hk, claimCheck_owns ho, State.kilnCharge, hl, orRefuse]

/-- A kiln command by what its rule says to the charge and the schedule. -/
theorem kilnCommand_rule (hk : readKilnOnly r.body = .ok k) (ho : Owns s p (.kiln k)) (h : Holds s k c x) :
    kilnCommand rule p r s = (match rule k c x s with
      | some t => .ok (t, kilnBody k c.id (t.kilnState k) (t.kiln k))
      | none => .error .badState) := by
  cases ht : rule k c x s <;>
    simp [kilnCommand, fields, hk, claimCheck_owns ho, h.kilnCharge, h.scheduleOf, ht, orRefuse, kilnBody, kilnNumber]

variable {code : Byte}

theorem kilnTake_empty (hk : readKilnOnly r.body = .ok k) (ho : Owns s p (.kiln k)) (hl : (s.kiln k).link = none)
    (hr : Offers s p code r) : takeRequest code (kilnCommand rule) p s = .next (s.refusedWith p r .badState) :=
  takeRequest_refused hr.1 hr.2.1 hr.2.2 (kilnCommand_empty hk ho hl)

theorem kilnTake_refused (hk : readKilnOnly r.body = .ok k) (ho : Owns s p (.kiln k)) (h : Holds s k c x)
    (hr : Offers s p code r) (ht : rule k c x s = none) :
    takeRequest code (kilnCommand rule) p s = .next (s.refusedWith p r .badState) :=
  takeRequest_refused hr.1 hr.2.1 hr.2.2 ((kilnCommand_rule hk ho h).trans (by rw [ht]))

/-- A kiln command whose rule changes the kiln to `kl` and its charge by `f`, in a state that may have returned a schedule. -/
theorem kilnTake_change {u : State} {kl : Kiln} {f : Charge → Charge} {kind : TraceKind} {name : StateName}
    (hk : readKilnOnly r.body = .ok k) (ho : Owns s p (.kiln k)) (h : Holds s k c x) (hr : Offers s p code r)
    (ht : rule k c x s = some (u.kilnChange k c.id kl f kind)) (hu : u.charges = s.charges)
    (hl : kl.link = (s.kiln k).link) (hf : ∀ c, (f c).id = c.id) (hn : (f c).state.name = name) :
    takeRequest code (kilnCommand rule) p s =
      .next ((u.kilnChange k c.id kl f kind).done p r (kilnBody k c.id name kl)) := by
  have charge : u.charge c.id = some c := by rw [State.charge, hu]; exact h.charge
  have shown : (u.kilnChange k c.id kl f kind).kilnState k = name := by
    rw [State.kilnChange_kilnState hf (hl.trans h.link) charge, hn]
  refine takeRequest_done hr.1 hr.2.1 hr.2.2 ((kilnCommand_rule hk ho h).trans ?_)
  rw [ht]
  simp only [shown, State.kilnChange_kiln]

/-! ## Changes of step and phase -/

theorem Kiln.enterStep_eq {kl : Kiln} {n : Nat} {tg : KilnTarget} (h : x.steps.target n = some tg) :
    kl.enterStep x n = { kl with
      target := some tg, wet := kl.dry - tg.depression, step := n, stepOn := 0, overtime := false } := by
  simp [Kiln.enterStep, Kiln.retarget, h, wetOf]

theorem Kiln.enterPhase_eq {kl : Kiln} {ph : Phase} {tg : KilnTarget} (h : x.phaseTarget ph = some tg) :
    kl.enterPhase x ph = { kl with
      target := some tg, wet := kl.dry - tg.depression, step := 0, stepOn := 0, phaseOn := 0, overtime := false } := by
  simp [Kiln.enterPhase, Kiln.retarget, h, wetOf]

theorem nextChange_step {n : Nat} (h : n < x.steps.count) : nextChange x .drying n = .step (n + 1) := if_pos h

/-- The phase that follows the last step, EQUALIZING and CONDITIONING (R87). -/
theorem nextChange_phase {ph : Phase} {n : Nat} (hc : ph ≠ .cooling) (hd : ph = .drying → x.steps.count ≤ n) :
    nextChange x ph n = .phase (if ph = .drying ∧ x.equalize.isSome = true then .equalizing
      else if ph ≠ .conditioning ∧ x.conditioning.isSome = true then .conditioning
      else .cooling) := by
  cases ph with
  | drying =>
    have last : ¬n < x.steps.count := Nat.not_lt.2 (hd rfl)
    cases he : x.equalize.isSome <;> simp [nextChange, last, afterDrying, afterEqualizing, he]
  | equalizing => simp [nextChange, afterEqualizing]
  | conditioning => simp [nextChange]
  | cooling => exact absurd rfl hc

theorem stopAccepts_iff (st : ChargeState) :
    stopAccepts st = true ↔ (∃ ph, st = .active ph ∧ ph ≠ .cooling) ∨ ∃ ph h, st = .held ph h := by
  cases st with
  | active ph => cases ph <;> simp [stopAccepts]
  | held ph h => simp [stopAccepts]
  | _ => simp [stopAccepts]

end

end Sys2Proof.Machine

open Sys2Proof Sys2Proof.Machine in
/-- Settles O34: each command by the state of the charge. -/
theorem kilnCommandsComplete : Obligations.KilnCommandsComplete := by
  unfold Obligations.KilnCommandsComplete
  refine ⟨readKilnOnly_beBytes, fun p r k s hk ho => ⟨fun hl => ⟨fun hr => kilnTake_empty hk ho hl hr,
    fun hr => kilnTake_empty hk ho hl hr, fun hr => kilnTake_empty hk ho hl hr, fun hr => kilnTake_empty hk ho hl hr⟩, ?_⟩⟩
  intro c x h
  refine ⟨fun hr => ⟨fun ph hc => ?_, fun hc => ?_⟩, fun hr => ⟨fun ph why hc => ?_, fun hc => ?_⟩,
    fun hr => ⟨fun tg hc hn ht => ?_, fun ph tg hc hne hd => ?_, fun n hc hn => ?_, fun hc => ?_⟩,
    fun hr => ⟨fun hc => ?_, fun ha hh => ?_⟩⟩
  · exact kilnTake_change hk ho h hr (by simp only [holdRule, hc]) rfl rfl (fun _ => rfl) rfl
  · refine kilnTake_refused hk ho h hr ?_
    cases hs : c.state with
    | active ph => exact absurd hs (hc ph)
    | _ => simp only [holdRule, hs]
  · exact kilnTake_change hk ho h hr (by simp only [resumeRule, hc]) rfl rfl (fun _ => rfl) rfl
  · refine kilnTake_refused hk ho h hr ?_
    cases hs : c.state with
    | held ph why => exact absurd hs (hc ph why)
    | _ => simp only [resumeRule, hs]
  · refine kilnTake_change hk ho h hr ?_ rfl rfl (fun _ => rfl) (by simp [hc, ChargeState.name, Phase.name])
    simp only [skipStepRule, hc, nextChange_step hn, State.applyChange, Change.kiln, Kiln.enterStep_eq ht]
    rfl
  · intro next ht
    refine kilnTake_change hk ho h hr ?_ rfl rfl (fun _ => rfl) rfl
    simp only [skipStepRule, hc, nextChange_phase hne hd, State.applyChange, Change.kiln]
    rw [Kiln.enterPhase_eq ht]
    rfl
  · refine kilnTake_change hk ho h hr ?_ rfl rfl (fun _ => rfl) rfl
    simp only [skipStepRule, hc, nextChange, State.applyChange, State.returnSchedule, hn]
    rfl
  · refine kilnTake_refused hk ho h hr ?_
    cases hs : c.state with
    | active ph => exact absurd hs (hc ph)
    | _ => simp only [skipStepRule, hs]
  · refine kilnTake_change hk ho h hr ?_ rfl rfl (fun _ => rfl) rfl
    simp only [stopRule, (stopAccepts_iff _).2 hc, if_true, State.applyChange, Change.kiln,
      Kiln.enterPhase_eq (show x.phaseTarget .cooling = some ⟨x.coolEnd, 0⟩ from rfl)]
    rfl
  · refine kilnTake_refused hk ho h hr (if_neg fun hs => ?_)
    rcases (stopAccepts_iff _).1 hs with ⟨ph, e, hne⟩ | ⟨ph, why, e⟩
    · exact hne (ha ph e)
    · exact hh ph why e

end

section
/-! SUPPORT. The state at the end of a cold start, block by block, and the invariants there. -/

namespace Sys2Proof.Machine

/-- Nothing is claimed at reset. -/
theorem reset_claim (res : Resource) : State.reset.claim res = ⟨none, false⟩ := by
  cases res with
  | kiln k => exact Table.get_replicate _ k
  | _ => rfl

theorem reset_kiln (k : KilnNo) : State.reset.kiln k = .cold := Table.get_replicate _ k

theorem reset_inUse (n : Nat) : State.reset.inUse n = 0 := Table.get_replicate _ _

theorem reset_claimsOk : ClaimsOk State.reset := fun res h => by
  rw [reset_claim] at h
  exact absurd h (by decide)

theorem reset_causesOk : CausesOk State.reset := fun p => by cases p <;> exact ⟨rfl, rfl⟩

theorem reset_slotsOk : SlotsOk State.reset := fun p h => by cases p <;> exact absurd h (by decide)

theorem reset_framesOk : FramesOk State.reset := ⟨fun h => absurd rfl h⟩

theorem reset_capacitiesOk : CapacitiesOk State.reset where
  charges := ⟨Nat.zero_le _, List.Pairwise.nil⟩
  lots := ⟨Nat.zero_le _, List.Pairwise.nil⟩
  packs := ⟨Nat.zero_le _, List.Pairwise.nil⟩
  labelQueue := Nat.zero_le _
  ring := Nat.zero_le _
  sortMap := ⟨Nat.zero_le _, List.Pairwise.nil⟩
  receiver := Nat.zero_le _
  run := fun _ h => nomatch h

theorem reset_recordsOk : RecordsOk State.reset := ⟨fun _ h => (nomatch h), fun _ h => nomatch h⟩

theorem reset_setpointsOk : SetpointsOk State.reset where
  setpoints := fun k => by rw [reset_kiln]; decide
  target := fun k t h => by rw [reset_kiln] at h; exact nomatch h
  schedules := fun _ h => nomatch h

theorem reset_inUseOk : InUseOk State.reset where
  counts := fun n _ _ => reset_inUse n
  numbers := fun _ h => nomatch h
  named := fun _ h => nomatch h
  keys := ⟨Nat.zero_le _, List.Pairwise.nil⟩
  library := fun _ h => nomatch h

theorem reset_refsOk : RefsOk State.reset where
  counts := fun _ h => nomatch h
  present := fun _ h => absurd rfl h
  once := ⟨fun _ h => (nomatch h), fun _ h => nomatch h⟩
  grounded := fun _ h => nomatch h
  flight := fun _ _ h => nomatch h
  run := fun _ _ h => nomatch h
  keys := ⟨List.Pairwise.nil, List.Pairwise.nil, List.Pairwise.nil⟩

theorem reset_boardsOk : BoardsOk State.reset := fun _ h => nomatch h

theorem reset_labelOk : LabelOk State.reset := by constructor <;> decide

theorem reset_traceOk : TraceOk State.reset := ⟨List.IsChain.nil, fun _ h => (nomatch h), by decide⟩

end Sys2Proof.Machine

open Sys2Proof Sys2Proof.Machine in
/-- Settles O56, block by block and invariant by invariant. -/
theorem resetIsTheColdStartAndMeetsTheInvariants : Obligations.ResetIsTheColdStartAndMeetsTheInvariants := by
  unfold Obligations.ResetIsTheColdStartAndMeetsTheInvariants
  refine ⟨fun p => ?_, reset_claim, reset_inUse, reset_kiln, rfl, rfl, rfl, rfl, by decide, rfl, rfl, rfl, rfl, rfl,
    fun bin => ?_, rfl, rfl, rfl, rfl, rfl, rfl, rfl, rfl, rfl, reset_claimsOk, reset_causesOk, reset_slotsOk, reset_framesOk, reset_capacitiesOk,
    reset_recordsOk, reset_setpointsOk, reset_inUseOk, reset_refsOk, reset_boardsOk, reset_labelOk, reset_traceOk⟩
  · cases p <;> exact ⟨rfl, rfl, rfl, rfl, rfl, rfl, rfl, rfl, rfl, rfl⟩
  · exact Table.get_replicate _ _

end

section
/-! SUPPORT. A reader of a body against the layout of its request: both find the same first bad field. -/

namespace Sys2Proof.Machine

/-- After fields of the values `seen`, `read` fails with the index that the layout finds, wherever it finds one. -/
def Rejects {α : Type} (L : Layout) (seen : List Nat) (read : Cursor → Except Nat α) : Prop :=
  ∀ fuel body i, firstBad L fuel seen body = some i → read ⟨body, seen.length + 1⟩ = .error i

section

variable {α β : Type} {L : Layout} {seen : List Nat}

/-! ## One field -/

/-- After the last field nothing is bad. -/
theorem Rejects.done {read : Cursor → Except Nat α} (h : L seen = none) : Rejects L seen read := fun fuel body i hb => by
  cases fuel <;> simp [firstBad, h] at hb

theorem Rejects.of_eq {read read' : Cursor → Except Nat α} (h : Rejects L seen read) (he : ∀ c, read' c = read c) :
    Rejects L seen read' := fun fuel body i hb => (he _).trans (h fuel body i hb)

theorem Rejects.assoc {γ : Type} {read : Cursor → Except Nat γ} {f : γ → Except Nat β} {k : β → Except Nat α}
    (h : Rejects L seen fun c => read c >>= fun x => f x >>= k) : Rejects L seen fun c => (read c >>= f) >>= k :=
  h.of_eq fun _ => bind_assoc _ _ _

theorem beNat_lt (bs : List Byte) : beNat bs < 256 ^ bs.length := by
  induction bs using List.reverseRecOn with
  | nil => exact Nat.one_pos
  | append_singleton bs b ih =>
    have hb : b.toNat < 256 := b.isLt
    simp only [beNat, List.foldl_append, List.foldl_cons, List.foldl_nil, List.length_append, List.length_cons,
      List.length_nil] at ih ⊢
    rw [pow_succ]
    omega

variable {w : Nat} {accepts ok : Nat → Bool}

/-- A number: bad where it is cut short or not accepted. -/
theorem Rejects.num {k : Nat × Cursor → Except Nat α} (h : L seen = some (.num w accepts))
    (hacc : ∀ v, v < 256 ^ w → accepts v = ok v) (hk : ∀ v, ok v = true → Rejects L (seen ++ [v]) fun c => k (v, c)) :
    Rejects L seen fun c => readNatIf w ok c >>= k := fun fuel body i hb => by
  cases fuel with
  | zero => simp [firstBad] at hb
  | succ fuel =>
    simp only [firstBad, h] at hb
    by_cases hw : w ≤ body.length
    · have hlt : beNat (body.take w) < 256 ^ w := by
        simpa [List.length_take, Nat.min_eq_left hw] using beNat_lt (body.take w)
      rw [hacc _ hlt] at hb
      by_cases hv : ok (beNat (body.take w)) = true
      · rw [if_pos ⟨hw, hv⟩] at hb
        have rest := hk _ hv fuel _ i hb
        simpa [readNatIf, readBytes, Nat.not_lt.2 hw, hv] using rest
      · rw [if_neg fun e => hv e.2, Option.some_inj] at hb
        simp [readNatIf, readBytes, Nat.not_lt.2 hw, hv, hb]
    · rw [if_neg fun e => hw e.1, Option.some_inj] at hb
      simp [readNatIf, readBytes, Nat.lt_of_not_le hw, hb]

theorem Rejects.nat {lo hi : Nat} {k : Nat × Cursor → Except Nat α} (h : L seen = some (ranged w lo hi))
    (hk : ∀ v, lo ≤ v → v ≤ hi → Rejects L (seen ++ [v]) fun c => k (v, c)) : Rejects L seen fun c => readNat w lo hi c >>= k :=
  .num h (fun v _ => by simp) fun v hv => by
    simp only [Bool.and_eq_true, decide_eq_true_eq] at hv
    exact hk v hv.1 hv.2

theorem Rejects.int {lo hi : Int} {k : Int × Cursor → Except Nat α} (h : L seen = some (.num w accepts))
    (hacc : ∀ v, v < 256 ^ w → accepts v = decide (lo ≤ signedOf w v ∧ signedOf w v ≤ hi))
    (hk : ∀ v, Rejects L (seen ++ [v]) fun c => k (signedOf w v, c)) : Rejects L seen fun c => readInt w lo hi c >>= k := by
  refine Rejects.of_eq (read := fun c => readNatIf w (fun v => decide (lo ≤ signedOf w v ∧ signedOf w v ≤ hi)) c >>=
    fun x => k (signedOf w x.1, x.2)) (.num h hacc fun v _ => hk v) fun c => ?_
  simp only [readInt, readNatIf]
  cases readBytes w c with
  | error i => rfl
  | ok x =>
    by_cases hv : lo ≤ signedOf w (beNat x.1) ∧ signedOf w (beNat x.1) ≤ hi <;> simp [hv]

theorem Rejects.flag {k : Bool × Cursor → Except Nat α} (h : L seen = some (ranged 1 0 1))
    (hk : ∀ v, Rejects L (seen ++ [v]) fun c => k (v == 1, c)) : Rejects L seen fun c => readFlag c >>= k :=
  Rejects.of_eq (read := fun c => readNat 1 0 1 c >>= fun x => k (x.1 == 1, x.2)) (.nat h fun v _ _ => hk v) fun c => by
    cases hr : readNat 1 0 1 c <;> simp [readFlag, hr]

theorem Rejects.kiln {k : KilnNo × Cursor → Except Nat α} (h : L seen = some (ranged 1 1 12))
    (hk : ∀ v, Rejects L (seen ++ [v]) fun c => k (kilnOfNumber v, c)) : Rejects L seen fun c => readKiln c >>= k :=
  Rejects.of_eq (read := fun c => readNat 1 1 12 c >>= fun x => k (kilnOfNumber x.1, x.2)) (.nat h fun v _ _ => hk v) fun c => by
    cases hr : readNat 1 1 12 c <;> simp [readKiln, hr]

theorem Rejects.text {least most : Nat} {k : Text × Cursor → Except Nat α} (h : L seen = some (.text least most))
    (hk : ∀ n t, Rejects L (seen ++ [n]) fun c => k (t, c)) : Rejects L seen fun c => readText least most c >>= k :=
  fun fuel body i hb => by
  cases fuel with
  | zero => simp [firstBad] at hb
  | succ fuel =>
    cases body with
    | nil =>
      simp only [firstBad, h] at hb
      rw [Option.some_inj] at hb
      simp [readText, hb]
    | cons n rest =>
      have chars : ((rest.take n.toNat).all printable = true) ↔
          ∀ ch ∈ rest.take n.toNat, 0x20 ≤ ch.toNat ∧ ch.toNat ≤ 0x7E := by
        simp only [List.all_eq_true, printable, Bool.and_eq_true, decide_eq_true_eq]
      simp only [firstBad, h] at hb
      simp only [readText, chars]
      by_cases good : least ≤ n.toNat ∧ n.toNat ≤ most ∧ n.toNat ≤ rest.length ∧
          ∀ ch ∈ rest.take n.toNat, 0x20 ≤ ch.toNat ∧ ch.toNat ≤ 0x7E
      · rw [if_pos good] at hb ⊢
        have later := hk n.toNat (rest.take n.toNat) fuel _ i hb
        simpa using later
      · rw [if_neg good, Option.some_inj] at hb
        rw [if_neg good, hb]
        rfl

/-- A dry-bulb and its depression: the dry-bulb is looked at first. -/
theorem Rejects.pair {checked : Bool} {k : (Nat × Nat) × Cursor → Except Nat α} (h : L seen = some (.pair checked))
    (hk : ∀ dry depression, Rejects L (seen ++ [dry, depression]) fun c => k ((dry, depression), c)) :
    Rejects L seen fun c => readPair checked c >>= k := fun fuel body i hb => by
  cases fuel with
  | zero => simp [firstBad] at hb
  | succ fuel =>
    simp only [firstBad, h] at hb
    by_cases short : body.length < 3
    · rw [if_pos (.inl short), Option.some_inj] at hb
      simp [readPair, short, hb]
    by_cases dry : checked = true ∧ ¬(200 ≤ beNat (body.take 3) / 4096 ∧ beNat (body.take 3) / 4096 ≤ 1100)
    · rw [if_pos (.inr dry), Option.some_inj] at hb
      simp only [readPair, short, if_false]
      rw [if_pos (by simpa [imp_iff_not_or] using dry), hb]
      rfl
    rw [if_neg (by tauto)] at hb
    have dryOk : ¬(checked &&
        !(decide (200 ≤ beNat (body.take 3) / 4096) && decide (beNat (body.take 3) / 4096 ≤ 1100))) = true := by
      simpa using dry
    simp only [readPair, short, if_false, if_neg dryOk]
    by_cases wet : checked = true ∧ 400 < beNat (body.take 3) % 4096
    · rw [if_pos wet, Option.some_inj] at hb
      rw [if_pos (by simpa using wet)]
      simp [← hb]
    · rw [if_neg wet] at hb
      have rest := hk _ _ fuel _ i hb
      rw [if_neg (by simpa using wet)]
      simpa using rest

/-! ## Lists -/

theorem readMany_succ (item : Reader β) (n : Nat) (c : Cursor) :
    readMany item (n + 1) c = item c >>= fun x => readMany item n x.2 >>= fun y => .ok (x.1 :: y.1, y.2) := by
  cases hx : item c with
  | error i => simp [readMany, hx]
  | ok x => cases hy : readMany item n x.2 <;> simp [readMany, hx, hy]

/-- A list whose items are each read where `P` says how many are left: after the last the body ends. -/
theorem Rejects.many {item : Reader β} {P : Nat → List Nat → Prop} (done : ∀ seen, P 0 seen → L seen = none)
    (next : ∀ n seen, P (n + 1) seen → ∀ k : β × Cursor → Except Nat α,
      (∀ seen', P n seen' → ∀ b, Rejects L seen' fun c => k (b, c)) → Rejects L seen fun c => item c >>= k) :
    ∀ n seen, P n seen → ∀ k : List β × Cursor → Except Nat α, Rejects L seen fun c => readMany item n c >>= k
  | 0, seen, hP, _ => .done (done seen hP)
  | n + 1, seen, hP, k => by
    refine Rejects.of_eq
      (read := fun c => item c >>= fun x => readMany item n x.2 >>= fun y => k (x.1 :: y.1, y.2)) ?_ fun c => ?_
    · exact next n seen hP _ fun seen' hP' b => Rejects.many done next n seen' hP' fun y => k (b :: y.1, y.2)
    · rw [readMany_succ, bind_assoc]
      exact congrArg _ (funext fun x => by rw [bind_assoc]; rfl)

end

end Sys2Proof.Machine

end

section
/-! SUPPORT. Each reader against the layout of its request kind. -/

namespace Sys2Proof.Machine

section

variable {fuel i : Nat} {b : List Byte}

theorem readOne_rejects {L : Layout} {w lo hi : Nat} {accepts : Nat → Bool} (h : L [] = some (.num w accepts))
    (hacc : ∀ v, v < 256 ^ w → accepts v = (decide (lo ≤ v) && decide (v ≤ hi)))
    (hend : ∀ v, L [v] = none) (hb : firstBad L fuel [] b = some i) : readOne w lo hi b = .error i :=
  Rejects.num (k := fun x => .ok x.1) h hacc (fun v _ => .done (hend v)) fuel b i hb

theorem readResource_rejects (hb : firstBad (layoutOf 0x01) fuel [] b = some i) : readResource b = .error i := by
  have h : readOne 1 1 15 b = .error i := readOne_rejects rfl (fun v _ => by simp) (fun v => rfl) hb
  simp [readResource, h]

theorem readKilnOnly_rejects (hb : firstBad (fixed [ranged 1 1 12]) fuel [] b = some i) : readKilnOnly b = .error i :=
  Rejects.kiln rfl (fun _ => .done rfl) fuel b i hb

theorem readDefineCharge_rejects (hb : firstBad (layoutOf 0x20) fuel [] b = some i) : readDefineCharge b = .error i :=
  Rejects.nat rfl (fun _ _ _ => .nat rfl fun _ _ _ => .nat rfl fun _ _ _ => .done rfl) fuel b i hb

theorem readSpecies_rejects (hb : firstBad (layoutOf 0x10) fuel [] b = some i) : readSpecies b = .error i := by
  refine Rejects.nat rfl (fun _ _ _ => .text rfl fun _ _ => .nat rfl fun _ _ _ => .int rfl ?_ fun _ => .nat rfl fun _ _ _ =>
    .done rfl) fuel b i hb
  intro v hv
  simp only [signedOf]
  split <;> simp only [decide_eq_decide] <;> omega

theorem readGradeText_rejects (hb : firstBad (layoutOf 0x16) fuel [] b = some i) : readGradeText b = .error i :=
  Rejects.nat rfl (fun _ _ _ => .text rfl fun _ _ => .done rfl) fuel b i hb

theorem readLoad_rejects (hb : firstBad (layoutOf 0x22) fuel [] b = some i) : readLoad b = .error i :=
  Rejects.kiln rfl (fun _ => .nat rfl fun _ _ _ => .nat rfl fun _ _ _ => .done rfl) fuel b i hb

theorem readUnload_rejects (hb : firstBad (layoutOf 0x23) fuel [] b = some i) : readUnload b = .error i :=
  Rejects.kiln rfl (fun _ => .nat rfl fun _ _ _ => .done rfl) fuel b i hb

theorem readTraceRead_rejects (hb : firstBad (layoutOf 0x80) fuel [] b = some i) : readTraceRead b = .error i :=
  Rejects.nat rfl (fun _ _ _ => .nat rfl fun _ _ _ => .done rfl) fuel b i hb

theorem readOpenRun_rejects (hb : firstBad (layoutOf 0x40) fuel [] b = some i) : readOpenRun b = .error i := by
  refine Rejects.nat rfl (fun _ _ _ => .num rfl ?_ fun _ _ => .num rfl ?_ fun _ _ => .nat rfl fun _ _ _ => .done rfl)
    fuel b i hb <;> exact fun v _ => by
      rw [Bool.eq_iff_iff]; simp

theorem readGradeReport_rejects (hb : firstBad (layoutOf 0x45) fuel [] b = some i) : readGradeReport b = .error i :=
  Rejects.nat rfl (fun _ _ _ => .nat rfl fun _ _ _ => .nat rfl fun _ _ _ => .nat rfl fun _ _ _ => .done rfl) fuel b i hb

theorem Rejects.sortKey {α : Type} {L : Layout} {seen : List Nat} {k : (Nat × Nat × Nat) × Cursor → Except Nat α}
    (h1 : L seen = some (ranged 1 1 8)) (h2 : ∀ g, L (seen ++ [g]) = some (ranged 2 50 400))
    (h3 : ∀ g w, L (seen ++ [g] ++ [w]) = some (ranged 1 1 8))
    (hk : ∀ g w n, Rejects L (seen ++ [g] ++ [w] ++ [n]) fun c => k ((g, w, n), c)) :
    Rejects L seen fun c => readSortKey c >>= k :=
  .assoc (.nat h1 fun g _ _ => .assoc (.nat (h2 g) fun w _ _ => .assoc (.nat (h3 g w) fun n _ _ => hk g w n)))

theorem readSortEntry_rejects (hb : firstBad (layoutOf 0x46) fuel [] b = some i) : readSortEntry b = .error i :=
  Rejects.sortKey rfl (fun _ => rfl) (fun _ _ => rfl) (fun _ _ _ => .nat rfl fun _ _ _ => .done rfl) fuel b i hb

theorem readSortKeyOnly_rejects (hb : firstBad (layoutOf 0x47) fuel [] b = some i) : readSortKeyOnly b = .error i :=
  Rejects.sortKey rfl (fun _ => rfl) (fun _ _ => rfl) (fun _ _ _ => .done rfl) fuel b i hb

/-- The two ways of saying how long a month is. -/
theorem daysIn_eq {y m : Nat} (h1 : 1 ≤ m) (h2 : m ≤ 12) : daysIn y m = monthDays y m := by
  have leap : (if (y % 4 = 0 ∧ y % 100 ≠ 0) ∨ y % 400 = 0 then 29 else 28) = if isLeap y then 29 else 28 := by
    simp [isLeap]
  interval_cases m <;> simp [daysIn, monthDays, monthLengths, leap]

theorem readSetClock_rejects (hb : firstBad (layoutOf 0x82) fuel [] b = some i) : readSetClock b = .error i :=
  Rejects.nat rfl (fun y _ _ => .nat rfl fun m h1 h2 => Rejects.nat (L := layoutOf 0x82) (by rw [← daysIn_eq h1 h2]; rfl)
    fun _ _ _ => .nat rfl fun _ _ _ => .nat rfl fun _ _ _ => .done rfl) fuel b i hb

theorem readRunForm_rejects (hb : firstBad (layoutOf 0x49) fuel [] b = some i) : readRunForm b = .error i := by
  refine Rejects.nat rfl (fun form lo hi => ?_) fuel b i hb
  interval_cases form
  · exact .done rfl
  · exact .nat rfl fun _ _ _ => .done rfl
  · exact .nat rfl fun _ _ _ => .done rfl
  · exact .done rfl

theorem readBinTarget_rejects (hb : firstBad (layoutOf 0x60) fuel [] b = some i) : readBinTarget b = .error i :=
  Rejects.nat rfl (fun _ _ _ => .nat rfl fun _ _ _ => .nat rfl fun _ _ _ => .done rfl) fuel b i hb

theorem readPackForm_rejects (hb : firstBad (layoutOf 0x63) fuel [] b = some i) : readPackForm b = .error i := by
  refine Rejects.nat rfl (fun form lo hi => ?_) fuel b i hb
  interval_cases form
  · exact .nat rfl fun _ _ _ => .done rfl
  · exact .done rfl
  · exact .done rfl

theorem readParameter_rejects (hb : firstBad (layoutOf 0x90) fuel [] b = some i) : readParameter b = .error i := by
  refine Rejects.nat rfl (fun n lo hi => ?_) fuel b i hb
  by_cases header : n = 18
  · subst header
    exact .text rfl fun _ _ => .done rfl
  · refine Rejects.of_eq (read := fun c => readNat 2 (paramRange n).1 (paramRange n).2 c >>= fun x => .ok (n, .number x.1))
      (.nat ?_ fun _ _ _ => .done rfl) fun c => if_neg header
    show some (if n = 18 then _ else _) = _
    rw [if_neg header]
    rfl

/-! ## Lists of items -/

/-- The values seen are those of the head of a body and then of `size` fields for each item read, `left` items of `n` to come. -/
def ItemsAfter (head : List Nat) (size n left : Nat) (seen : List Nat) : Prop :=
  ∃ items, seen = head ++ items ∧ items.length + size * left = size * n

theorem ItemsAfter.start {head : List Nat} {size n : Nat} : ItemsAfter head size n n head := ⟨[], by simp, by simp⟩

theorem ItemsAfter.next {head item seen : List Nat} {size n left : Nat} (h : ItemsAfter head size n (left + 1) seen)
    (hs : item.length = size) : ItemsAfter head size n left (seen ++ item) := by
  obtain ⟨items, rfl, len⟩ := h
  refine ⟨items ++ item, List.append_assoc _ _ _, ?_⟩
  rw [List.length_append, hs]
  rw [Nat.mul_succ] at len
  omega

theorem readSampleWeights_rejects (hb : firstBad (layoutOf 0x26) fuel [] b = some i) : readSampleWeights b = .error i := by
  refine Rejects.nat rfl (fun id _ _ => .nat rfl fun n _ _ => Rejects.many (P := ItemsAfter [id, n] 1 n)
    (fun seen hP => ?_) (fun left seen hP k hk => .nat ?_ fun v _ _ => hk _ (hP.next rfl) v) n _ .start _) fuel b i hb
  all_goals
    obtain ⟨items, rfl, len⟩ := hP
    simp [layoutOf]
    omega

theorem readSetSamples_rejects (hb : firstBad (layoutOf 0x21) fuel [] b = some i) : readSetSamples b = .error i := by
  refine Rejects.nat rfl (fun id _ _ => .nat rfl fun n _ _ => Rejects.many (P := ItemsAfter [id, n] 2 n)
    (fun seen hP => ?_) (fun left seen hP k hk => .assoc (.nat ?_ fun g _ _ => .assoc (.nat ?_ fun mc _ _ => ?_)))
    n _ .start _) fuel b i hb
  case refine_4 =>
    rw [List.append_assoc]
    exact hk _ (hP.next rfl) (g, mc)
  all_goals
    obtain ⟨items, rfl, len⟩ := hP
    simp [layoutOf]
    omega

theorem readKilnReport_rejects (hb : firstBad (layoutOf 0x30) fuel [] b = some i) : readKilnReport b = .error i := by
  have any : ∀ v, v < 256 ^ 2 → true = decide (-32768 ≤ signedOf 2 v ∧ signedOf 2 v ≤ 32767) := fun v hv => by
    simp only [signedOf]
    split <;> simp only [true_eq_decide_iff] <;> omega
  refine Rejects.kiln rfl (fun k => .int rfl any fun dry => .int rfl any fun wet => .nat rfl fun n _ _ => Rejects.many
    (P := ItemsAfter [k, dry, wet, n] 1 n) (fun seen hP => ?_)
    (fun left seen hP k hk => .int ?_ any fun v => hk _ (hP.next rfl) _) n _ .start _) fuel b i hb
  all_goals
    obtain ⟨items, rfl, len⟩ := hP
    simp [layoutOf, show ¬items.length + 1 + 1 + 1 + 1 < 3 by omega]
    omega

/-! ## The bands and the steps -/

theorem readBands_rejects {α : Type} : ∀ (left prev : Nat) (seen : List Nat) (n : Nat)
    (k : List Band × Cursor → Except Nat α),
    ItemsAfter [n] 2 n left seen → prev = (if seen.length = 1 then 0 else seen.getD (seen.length - 2) 0) →
    Rejects bandsLayout seen fun c => readBands left prev c >>= k
  | 0, prev, seen, n, k, h, _ => .done (by
    obtain ⟨items, rfl, len⟩ := h
    simp [bandsLayout]
    omega)
  | left + 1, prev, seen, n, k, h, hprev => by
    have bound : bandsLayout seen = some (.num 2 fun v => decide (500 ≤ v ∧ v ≤ 7500) &&
        (seen.length == 1 || decide (seen.getD (seen.length - 2) 0 < v))) := by
      obtain ⟨items, rfl, len⟩ := h
      simp [bandsLayout]
      omega
    have text : ∀ v, bandsLayout (seen ++ [v]) = some (.text 1 4) := fun v => by
      obtain ⟨items, rfl, len⟩ := h
      simp [bandsLayout]
      omega
    refine .assoc (.num bound (fun v _ => ?_) fun v _ => .assoc (.text (text v) fun size t => .assoc
      (readBands_rejects left v _ n _ ?_ ?_)))
    · rw [Bool.eq_iff_iff, hprev]
      by_cases one : seen.length = 1
      · simp [one]
        omega
      · simp [one]
    · rw [List.append_assoc]
      exact h.next rfl
    · simp

theorem readLengthBands_rejects (hb : firstBad (layoutOf 0x17) fuel [] b = some i) : readLengthBands b = .error i :=
  Rejects.num (L := bandsLayout) rfl (fun v _ => by rw [Bool.eq_iff_iff]; simp)
    (fun n _ => readBands_rejects n 0 _ n _ .start rfl) fuel b i hb

/-- The fields of a step by its kind, once the fields before the steps are read. -/
theorem scheduleLayout_step {seen : List Nat} (h : 16 ≤ seen.length) : scheduleLayout seen =
    if seen.getD 1 0 = 1 then
      if 5 * seen.getD 15 0 ≤ seen.length - 16 then none
      else if (seen.length - 16) % 5 = 0 then some (.pair true)
      else if (seen.length - 16) % 5 = 2 then
        some (ranged 2 0 (if seen.length - 16 < 5 then 2000 else seen.getD (seen.length - 5) 0))
      else some (ranged 2 0 9999)
    else
      if 3 * seen.getD 15 0 ≤ seen.length - 16 then none
      else if (seen.length - 16) % 3 = 0 then some (.pair true)
      else some (ranged 2 1 9999) := by
  unfold scheduleLayout
  simp (disch := omega) only [if_neg]

/-- A number that is checked only where a flag before it is 1. -/
theorem Rejects.checkedNum {α : Type} {L : Layout} {seen : List Nat} {w lo hi : Nat} {enabled : Bool} {ok : Nat → Bool}
    {k : Nat × Cursor → Except Nat α} (h : L seen = some (if enabled then ranged w lo hi else .num w fun _ => true))
    (hok : ∀ v, ok v = (!enabled || decide (lo ≤ v ∧ v ≤ hi))) (hk : ∀ v, Rejects L (seen ++ [v]) fun c => k (v, c)) :
    Rejects L seen fun c => readNatIf w ok c >>= k := by
  have form : L seen = some (.num w fun v => !enabled || decide (lo ≤ v ∧ v ≤ hi)) := by
    rw [h]; cases enabled <;> simp [ranged]
  exact .num form (fun v _ => (hok v).symm) fun v _ => hk v

section

variable {α : Type}

theorem Rejects.equalize {a b c d : Nat} {k : Option Equalize × Cursor → Except Nat α}
    (hk : ∀ e x y z t o, Rejects scheduleLayout [a, b, c, d, e, x, y, z, t] fun c => k (o, c)) :
    Rejects scheduleLayout [a, b, c, d] fun c => readEqualize c >>= k :=
  .assoc (.flag rfl fun e => .assoc (.pair rfl fun x y =>
    .assoc (.checkedNum (enabled := e == 1) (lo := 0) (hi := 100) rfl (fun v => by simp) fun z =>
    .assoc (.checkedNum (enabled := e == 1) (lo := 1) (hi := 9999) rfl (fun v => by simp) fun t => hk e x y z t _))))

theorem Rejects.conditioning {a b c d e x y z t : Nat} {k : Option Conditioning × Cursor → Except Nat α}
    (hk : ∀ f u v m o, Rejects scheduleLayout [a, b, c, d, e, x, y, z, t, f, u, v, m] fun c => k (o, c)) :
    Rejects scheduleLayout [a, b, c, d, e, x, y, z, t] fun c => readConditioning c >>= k :=
  .assoc (.flag rfl fun f => .assoc (.pair rfl fun u v =>
    .assoc (.checkedNum (enabled := f == 1) (lo := 1) (hi := 9999) rfl (fun v => by simp) fun m => hk f u v m _)))

/-- The values seen at a step: the sixteen of the header, of kind `kind` with `n` steps, and `size` for each step read. -/
structure StepsAfter (kind size n left : Nat) (seen : List Nat) : Prop where
  length : seen.length + size * left = 16 + size * n
  header : 16 ≤ seen.length
  kind : seen.getD 1 0 = kind
  count : seen.getD 15 0 = n

theorem StepsAfter.append {kind size n left : Nat} {seen item : List Nat} (h : StepsAfter kind size n (left + 1) seen)
    (hs : item.length = size) : StepsAfter kind size n left (seen ++ item) where
  length := by
    have len := h.length
    rw [Nat.mul_succ] at len
    rw [List.length_append, hs]
    omega
  header := by
    have := h.header
    rw [List.length_append]
    omega
  kind := by
    have := h.header
    rw [List.getD_append _ _ _ _ (by omega), h.kind]
  count := by
    have := h.header
    rw [List.getD_append _ _ _ _ (by omega), h.count]

/-- After the last step the body ends. -/
theorem StepsAfter.done {kind size n : Nat} {seen : List Nat} (h : StepsAfter kind size n 0 seen)
    (hs : size = if kind = 1 then 5 else 3) : scheduleLayout seen = none := by
  have len := h.length
  rw [scheduleLayout_step h.header, h.kind, h.count]
  by_cases hk : kind = 1
  · rw [if_pos hk] at hs ⊢
    rw [hs] at len
    exact if_pos (by omega)
  · rw [if_neg hk] at hs ⊢
    rw [hs] at len
    exact if_pos (by omega)

/-- The field of a MOISTURE step after the fields `item` of the same step (R42). -/
theorem StepsAfter.moistureField {n left : Nat} {seen : List Nat} (h : StepsAfter 1 5 n (left + 1) seen) {item : List Nat}
    (hs : item.length < 5) : scheduleLayout (seen ++ item) = some
      (if item.length = 0 then .pair true
      else if item.length = 2 then ranged 2 0 (if seen.length = 16 then 2000 else seen.getD (seen.length - 3) 0)
      else ranged 2 0 9999) := by
  have len := h.length
  have header := h.header
  rw [scheduleLayout_step (by rw [List.length_append]; omega), List.getD_append _ _ _ _ (by omega), h.kind,
    List.getD_append _ _ _ _ (by omega), h.count, List.length_append, if_pos rfl, if_neg (by omega)]
  by_cases two : item.length = 2
  · by_cases first : seen.length = 16
    · simp [two, first]
    · rw [if_neg (by omega), if_pos (by omega), if_neg (by omega), List.getD_append _ _ _ _ (by omega), if_neg (by omega),
        if_pos two, if_neg first, two]
      rfl
  · by_cases start : item.length = 0
    · rw [if_pos (by omega), if_pos start]
    · rw [if_neg (by omega), if_neg (by omega), if_neg start, if_neg two]

/-- The field of a TIME step after the fields `item` of the same step (R42). -/
theorem StepsAfter.timeField {kind n left : Nat} {seen : List Nat} (hk : kind ≠ 1) (h : StepsAfter kind 3 n (left + 1) seen)
    {item : List Nat} (hs : item.length < 3) : scheduleLayout (seen ++ item) = some
      (if item.length = 0 then .pair true else ranged 2 1 9999) := by
  have len := h.length
  have header := h.header
  rw [scheduleLayout_step (by rw [List.length_append]; omega), List.getD_append _ _ _ _ (by omega), h.kind,
    List.getD_append _ _ _ _ (by omega), h.count, List.length_append, if_neg hk, if_neg (by omega)]
  by_cases start : item.length = 0
  · rw [if_pos (by omega), if_pos start]
  · rw [if_neg (by omega), if_neg start]

theorem readTimeSteps_rejects {kind n left : Nat} {seen : List Nat} (hk : kind ≠ 1) (h : StepsAfter kind 3 n left seen)
    (k : List TimeStep × Cursor → Except Nat α) :
    Rejects scheduleLayout seen fun c => readMany readTimeStep left c >>= k := by
  refine Rejects.many (P := StepsAfter kind 3 n) (fun seen h => h.done (if_neg hk).symm)
    (fun left seen h k next => ?_) left seen h k
  refine .assoc (.pair ?_ fun x y => .assoc (.nat (h.timeField hk (item := [x, y]) (by simp)) fun t _ _ => ?_))
  · simpa using h.timeField hk (item := []) (by simp)
  · rw [List.append_assoc]
    exact next _ (h.append rfl) _

theorem readMoistureSteps_rejects (n : Nat) : ∀ (left prev : Nat) (seen : List Nat)
    (k : List MoistureStep × Cursor → Except Nat α),
    StepsAfter 1 5 n left seen → prev = (if seen.length = 16 then 2000 else seen.getD (seen.length - 3) 0) →
    Rejects scheduleLayout seen fun c => readMoistureSteps left prev c >>= k
  | 0, prev, seen, k, h, _ => .done (h.done rfl)
  | left + 1, prev, seen, k, h, hprev => by
    refine .assoc (.pair ?_ fun x y => .assoc (.nat ?_ fun v _ _ => .assoc (.nat ?_ fun on _ _ => .assoc (.nat ?_ fun off _ _ =>
      .assoc (readMoistureSteps_rejects n left v _ _ ?_ ?_)))))
    · simpa using h.moistureField (item := []) (by simp)
    · rw [hprev]
      exact h.moistureField (item := [x, y]) (by simp)
    · simpa using h.moistureField (item := [x, y, v]) (by simp)
    · simpa using h.moistureField (item := [x, y, v, on]) (by simp)
    · rw [List.append_assoc, List.append_assoc, List.append_assoc]
      exact h.append rfl
    · have header := h.header
      simp [show seen.length ≠ 11 by omega]

theorem readSteps_time {kind count : Nat} (h : kind ≠ 1) (c : Cursor) :
    readSteps kind count c = readMany readTimeStep count c >>= fun x => .ok (.time x.1, x.2) := if_neg h

theorem readSchedule_rejects (hb : firstBad (layoutOf 0x13) fuel [] b = some i) : readSchedule b = .error i := by
  refine Rejects.nat (L := scheduleLayout) rfl (fun number _ _ => .nat rfl fun kind _ _ => .nat rfl fun final _ _ =>
    .nat rfl fun ramp _ _ => .equalize fun e x y z t _ => .conditioning fun f u v m _ => .nat rfl fun ce _ _ =>
    .nat rfl fun cm _ _ => .nat rfl fun count _ _ => ?_) fuel b i hb
  have start : ∀ size, StepsAfter kind size count count
      [number, kind, final, ramp, e, x, y, z, t, f, u, v, m, ce, cm, count] := fun size =>
    ⟨rfl, le_rfl, rfl, rfl⟩
  by_cases moisture : kind = 1
  · subst moisture
    exact .assoc (readMoistureSteps_rejects count count 2000 _ _ (start 5) rfl)
  · simp only [readSteps_time moisture]
    exact .assoc (readTimeSteps_rejects moisture (start 3) _)

end

end

end Sys2Proof.Machine

end

section
/-! SUPPORT. A take whose body is bad, a take that is refused and a take that finds nothing. -/

namespace Sys2Proof.Machine

section

variable {s t : State} {p : Port} {r : Request} {code : Byte} {fuel i : Nat}

theorem fields_bad {α β : Type} {x : Except Nat α} {k : α → Except Reason β} (h : x = .error i) :
    (fields x >>= k) = .error (.badField i) := by
  rw [h]; rfl

/-- A bad body is answered once the claim check has passed. -/
theorem owned_fields_bad {α β : Type} {x : Except Nat α} {k : α → Except Reason β} {res : Resource} (ho : Owns s p res)
    (h : x = .error i) : (claimCheck res p s >>= fun _ => fields x >>= k) = .error (.badField i) := by
  rw [claimCheck_owns ho]
  exact fields_bad h

/-- Port `p` owns the kiln that the first byte of the body names. -/
def OwnsNamed (s : State) (p : Port) (r : Request) : Prop :=
  ∀ (k : KilnNo) (b : Byte) (rest : List Byte), r.body = b :: rest → b.toNat = k.val + 1 → Owns s p (.kiln k)

/-- Field 1 names a kiln that the port owns, or the body is bad there. -/
theorem readKiln_owned (ho : OwnsNamed s p r) :
    (∃ k c, readKiln (fieldsOf r.body) = .ok (k, c) ∧ Owns s p (.kiln k)) ∨ readKiln (fieldsOf r.body) = .error 1 := by
  by_cases named : ∃ n rest, r.body = n :: rest ∧ 1 ≤ n.toNat ∧ n.toNat ≤ 12
  · obtain ⟨n, rest, body, range⟩ := named
    refine .inl ⟨_, _, by rw [body, readKiln_named rest range], ho _ n rest body ?_⟩
    simp only [kilnOfNumber, Fin.ofNat_eq_cast, Fin.val_natCast]
    omega
  · exact .inr (readKiln_unnamed named)

theorem loadAct_bad (ho : OwnsNamed s p r) (h : readLoad r.body = .error i) : loadAct p r s = .error (.badField i) := by
  rcases readKiln_owned ho with ⟨k, c, read, owns⟩ | bad
  · simp [loadAct, read, fields, claimCheck_owns owns, h]
  · simp [readLoad, bad] at h
    simp [loadAct, bad, fields, h]

theorem unloadAct_bad (ho : OwnsNamed s p r) (h : readUnload r.body = .error i) : unloadAct p r s = .error (.badField i) := by
  rcases readKiln_owned ho with ⟨k, c, read, owns⟩ | bad
  · simp [unloadAct, read, fields, claimCheck_owns owns, h]
  · simp [readUnload, bad] at h
    simp [unloadAct, bad, fields, h]

/-- No field of a body that carries none is bad. -/
theorem firstBad_of_none {L : Layout} {b : List Byte} (h : L [] = none) : firstBad L fuel [] b ≠ some i := by
  cases fuel <;> simp [firstBad, h]

/-- The act of a take with a bad body refuses it, once its claim check has passed. -/
theorem actOf_badField {c : Instr} (ht : takenBy c = some (p, code)) (hg : ∀ res, gatedBy c = some res → Owns s p res)
    (hk : gatedByKiln c = true → OwnsNamed s p r) (hb : firstBad (layoutOf code) fuel [] r.body = some i) : actOf c p r s = .error (.badField i) := by
  have ranged : ∀ {w lo hi : Nat}, layoutOf code = fixed [.num w fun v => decide (lo ≤ v ∧ v ≤ hi)] →
      readOne w lo hi r.body = .error i := fun form => by
    rw [form] at hb
    exact readOne_rejects rfl (fun v _ => by simp) (fun v => rfl) hb
  have free : ∀ {w : Nat}, layoutOf code = fixed [.num w fun _ => true] → 
      readOne w 0 (256 ^ w - 1) r.body = .error i := fun form => by
    rw [form] at hb
    exact readOne_rejects rfl (fun v hv => by simp; omega) (fun v => rfl) hb
  cases c with
  | claim | release | seize => cases ht; exact fields_bad (readResource_rejects hb)
  | putSpecies => cases ht; exact owned_fields_bad (hg _ rfl) (readSpecies_rejects hb)
  | deleteSpecies | deleteSchedule | addSource | reprint => cases ht; exact owned_fields_bad (hg _ rfl) (ranged rfl)
  | speciesQuery | scheduleQuery | parameterQuery | closeLot | convertLot | closePack | releasePack | retireCharge =>
    cases ht; exact fields_bad (ranged rfl)
  | setTraceMark | chargeQuery | lotQuery => cases ht; exact fields_bad (free rfl)
  | putSchedule => cases ht; exact owned_fields_bad (hg _ rfl) (readSchedule_rejects hb)
  | putGradeText => cases ht; exact owned_fields_bad (hg _ rfl) (readGradeText_rejects hb)
  | putLengthBands => cases ht; exact owned_fields_bad (hg _ rfl) (readLengthBands_rejects hb)
  | putParameter => cases ht; exact owned_fields_bad (hg _ rfl) (readParameter_rejects hb)
  | setClock => cases ht; exact fields_bad (readSetClock_rejects hb)
  | traceRead => cases ht; exact fields_bad (readTraceRead_rejects hb)
  | defineCharge => cases ht; exact fields_bad (readDefineCharge_rejects hb)
  | setSamples => cases ht; exact fields_bad (readSetSamples_rejects hb)
  | sampleWeights => cases ht; exact fields_bad (readSampleWeights_rejects hb)
  | load => cases ht; exact loadAct_bad (hk rfl) (readLoad_rejects hb)
  | unload => cases ht; exact unloadAct_bad (hk rfl) (readUnload_rejects hb)
  | kilnReport => cases ht; exact fields_bad (readKilnReport_rejects hb)
  | start | hold | resume | skipStep | stop | kilnStatus => cases ht; exact fields_bad (readKilnOnly_rejects hb)
  | openRun => cases ht; exact owned_fields_bad (hg _ rfl) (readOpenRun_rejects hb)
  | boardGrade => cases ht; exact fields_bad (readGradeReport_rejects hb)
  | putSortEntry => cases ht; exact owned_fields_bad (hg _ rfl) (readSortEntry_rejects hb)
  | removeSortEntry => cases ht; exact owned_fields_bad (hg _ rfl) (readSortKeyOnly_rejects hb)
  | runStatus => cases ht; exact fields_bad (readRunForm_rejects hb)
  | setBinTarget => cases ht; exact owned_fields_bad (hg _ rfl) (readBinTarget_rejects hb)
  | packQuery => cases ht; exact fields_bad (readPackForm_rejects hb)
  | advanceSource | closeRun | abortRun | clearSortMap | haltPrinter | resumePrinter | printerStatus =>
    cases ht; exact absurd hb (firstBad_of_none rfl)
  | _ => cases ht

/-- The answer handed back last is the last in flight. -/
theorem handBack_last (v : Verdict) :
    ((s.handBack p r v).port p).inFlight.getLast? = some ((s.port p).ticket, ⟨r.kind, r.tag, v⟩) := by
  simp [State.handBack]

end

end Sys2Proof.Machine

open Sys2Proof Sys2Proof.Machine in
/-- Settles O15, by the act of each take and the cases of `takeRequest`. -/
theorem takesThatDoNotAct : Obligations.TakesThatDoNotAct := by
  unfold Obligations.TakesThatDoNotAct
  refine ⟨fun c p code r i s ht hr hg hk hb => ?_, fun c p code r x a e s t ht hr he hl hv => ?_,
    fun c p code s ht hn => ?_⟩
  · obtain ⟨phase, slot, kind⟩ := hr
    rw [exec_take ht]
    exact takeRequest_refused phase slot kind (actOf_badField ht hg hk hb)
  · obtain ⟨phase, slot, kind⟩ := hr
    rcases takeRequest_cases (exec_take ht s ▸ he) with
      ⟨-, idle | none⟩ | ⟨r', u, b, -, -, next⟩ | ⟨r', e', offer, -, next⟩
    · exact absurd phase idle
    · rw [offered_eq_some.2 ⟨slot, kind⟩] at none
      exact nomatch none
    · cases next
      rw [handBack_last, Option.some_inj, Prod.mk.injEq] at hl
      rw [← hl.2] at hv
      exact nomatch hv
    · cases next
      rw [handBack_last, Option.some_inj, Prod.mk.injEq] at hl
      rw [← hl.2] at hv
      cases hv
      rw [offered_eq_some.2 ⟨slot, kind⟩] at offer
      cases offer
      rfl
  · rw [exec_take ht]
    by_cases phase : s.retention.phase = .running
    · have nothing : s.offered p code = none :=
        Option.eq_none_iff_forall_ne_some.2 fun r offer => hn r ⟨phase, offered_eq_some.1 offer⟩
      simp [takeRequest, event, phase, nothing]
    · exact event_idle phase

end

section
/-! SUPPORT. What a RESTART and a warm start rebuild: the RESTART records, the charges and kilns, and the label queue. -/

namespace Sys2Proof.Machine

variable {s t : State}

/-! ## The RESTART records -/

/-- The RESTART record of kiln `x.1` and its charge `x.2` as they stand, without its sequence (R187, R189). -/
def State.restartRecord (s : State) (x : KilnNo × Nat) : TraceRecord :=
  recordOf s.clock x.1 x.2 ((s.charge x.2).bind Charge.controlling) (s.kiln x.1) .restart
    (match s.charge x.2 with | some c => c.state.name | none => .empty)

theorem restartList_eq (s : State) : s.restartList = s.occupied.map s.restartRecord := by
  have twelve : List.finRange 12 = allKilns := by decide
  rw [State.restartList, State.occupied, List.map_filterMap, twelve]
  refine List.filterMap_congr fun k _ => ?_
  cases hl : (s.kiln k).link with
  | none => rfl
  | some id =>
    cases hc : s.charge id <;> simp [State.restartRecord, State.kilnState, State.kilnCharge, hl, hc]

theorem occupied_length (s : State) : s.occupied.length ≤ 12 := List.length_filterMap_le _ allKilns

/-- Records show the charges, the kilns and the clock alone. -/
theorem restartRecord_congr (hc : t.charges = s.charges) (hk : t.kilns = s.kilns) (hm : t.clock = s.clock) :
    t.restartRecord = s.restartRecord := by
  funext x
  simp only [State.restartRecord, State.charge, State.kiln, hc, hk, hm]

theorem occupied_congr (hk : t.kilns = s.kilns) : t.occupied = s.occupied := by
  simp only [State.occupied, State.kiln, hk]

theorem restartList_congr (hc : t.charges = s.charges) (hk : t.kilns = s.kilns) (hm : t.clock = s.clock) :
    t.restartList = s.restartList := by
  rw [restartList_eq, restartList_eq, occupied_congr hk, restartRecord_congr hc hk hm]

/-- Only the trace and the port units change when records are written. -/
theorem restartRecords_within (l : List (KilnNo × Nat)) :
    Within (fun b => match b with | .trace => true | _ => false) s (s.restartRecords l) :=
  .foldl (fun t _ => (Within.refl t).writeTrace rfl _ _ _) l (.refl s)

/-- The log overwrites the sequence that a record carries. -/
theorem after_seq (g : TraceLog) (x : TraceRecord) (n : Nat) : g.after [{ x with seq := n }] = g.after [x] := rfl

theorem restartRecords_cons (s : State) (x : KilnNo × Nat) (l : List (KilnNo × Nat)) :
    s.restartRecords (x :: l) = (s.writeTrace x.1 x.2 .restart).restartRecords l := rfl

/-- Records written to a log clear of a wrap follow it in order, and raise TRACE_MARK where they reach the mark. -/
theorem restartRecords_after : ∀ (l : List (KilnNo × Nat)) (s : State), s.trace.Clear l.length →
    (s.restartRecords l).trace = s.trace.after (l.map s.restartRecord) ∧
    ∀ q, ((s.restartRecords l).port q).pending = (s.port q).pending |||
      ((s.port q).enabled &&& if s.trace.markReached l.length then 0x010000 else 0)
  | [], s, h => ⟨(TraceLog.after_nil _ h).symm, fun q => by
      have none : s.trace.markReached 0 = false := by
        unfold TraceLog.markReached
        cases s.trace.mark <;> simp
      simp [State.restartRecords, none]⟩
  | x :: l, s, h => by
    obtain ⟨log, ports⟩ := State.writeTrace_after s x.1 x.2 .restart (h.mono (by simp))
    have first : (s.writeTrace x.1 x.2 .restart).trace = s.trace.after [s.restartRecord x] := by
      rw [log, State.traceRecord_eq, after_seq]
      rfl
    have clear : (s.writeTrace x.1 x.2 .restart).trace.Clear l.length := by
      rw [first]
      simpa using h.after [s.restartRecord x] (by simp)
    obtain ⟨later, pending⟩ := restartRecords_after l (s.writeTrace x.1 x.2 .restart) clear
    have same : (s.writeTrace x.1 x.2 .restart).restartRecord = s.restartRecord := by
      rw [State.writeTrace_eq]
      rfl
    refine ⟨?_, fun q => ?_⟩
    · exact later.trans (by rw [first, same, TraceLog.after_append]; rfl)
    · have add := s.trace.markReached_add [s.restartRecord x] l.length
      have both : s.trace.markReached (x :: l).length =
          (s.trace.markReached 1 || (s.trace.after [s.restartRecord x]).markReached l.length) := by
        rw [List.length_cons, Nat.add_comm]
        exact add
      rw [restartRecords_cons, pending q, ports q, first, both]
      cases s.trace.markReached 1 <;> cases (s.trace.after [s.restartRecord x]).markReached l.length <;>
        simp [BitVec.or_assoc]

/-- Records may raise TRACE_MARK, and change nothing else of a port unit. -/
theorem restartRecords_pending (q : Port) : ∀ (l : List (KilnNo × Nat)) (s : State),
    ((s.restartRecords l).port q).pending = (s.port q).pending ∨
    ((s.restartRecords l).port q).pending = (s.port q).pending ||| (0x010000 &&& (s.port q).enabled)
  | [], s => .inl rfl
  | x :: l, s => by
    have first : (s.writeTrace x.1 x.2 .restart).port q = s.port q ∨
        (s.writeTrace x.1 x.2 .restart).port q = (s.port q).raise .traceMark := by
      rw [State.writeTrace_eq]
      cases s.trace.ready.reaches
      · exact .inl rfl
      · exact .inr (Ports.get_map _ _ _)
    rw [restartRecords_cons]
    rcases first with e | e <;> rcases restartRecords_pending q l (s.writeTrace x.1 x.2 .restart) with h | h <;> rw [h, e]
    · exact .inl rfl
    · exact .inr rfl
    · exact .inr rfl
    · refine .inr ?_
      change (_ ||| _) ||| _ = _ 
      rw [BitVec.or_assoc]
      exact congrArg _ (BitVec.or_self)

/-! ## The charges and the kilns -/

theorem isHeld_iff (st : ChargeState) : isHeld st = true ↔ ∃ ph h, st = .held ph h := by
  cases st <;> simp [isHeld]

/-- The charges and the kilns of a restart are those that the statements write out. -/
theorem restartedCharges_of_eq {why : HoldReason} (hc : t.charges = (s.restartCharges why).charges)
    (hk : t.kilns = (s.restartCharges why).kilns) : RestartedCharges s t why where
  charges := hc.trans rfl
  kilns := fun k => by
    have kiln : t.kiln k = (s.kiln k).restarted ((s.kiln k).link.bind t.charge) := by
      have charge : t.charge =
          (s.withCharges { s.charges with entries := s.charges.entries.map (Charge.restarted why) }).charge := by
        funext id
        simp only [State.charge, hc]
        rfl
      rw [charge, State.kiln, hk]
      exact Table.get_map _ _ _
    refine ⟨(t.kiln k).timer, ?_, by rw [kiln]; rfl⟩
    have charge : t.kilnCharge k = (s.kiln k).link.bind t.charge := by rw [State.kilnCharge, kiln]; rfl
    rw [charge, kiln]
    cases hl : (s.kiln k).link.bind t.charge with
    | none => simp [Kiln.restarted]
    | some c => simp [Kiln.restarted, isHeld_iff]

/-! ## The label queue -/

/-- The blocks of `w` that the label engine works on, in the state `v`. -/
def State.cloak (w v : State) : State :=
  { v with library := w.library, charges := w.charges, packs := w.packs, label := w.label, clock := w.clock }

section

variable (w v : State) (lbsy : Bool)

@[simp] theorem cloak_label : (w.cloak v).label = w.label := rfl
@[simp] theorem cloak_pack : (w.cloak v).pack = w.pack := rfl
@[simp] theorem cloak_labelFields : (w.cloak v).labelFields = w.labelFields := rfl
@[simp] theorem cloak_withLabel (e : LabelEngine) : (w.cloak v).withLabel e = (w.withLabel e).cloak v := rfl
@[simp] theorem cloak_modifyPack (id : Nat) (f : Pack → Pack) :
    (w.cloak v).modifyPack id f = (w.modifyPack id f).cloak v := rfl

@[simp] theorem cloak_beginCycle : (w.cloak v).beginCycle lbsy = (w.beginCycle lbsy).cloak v := by
  cases lbsy <;> rfl

@[simp] theorem cloak_startHead : (w.cloak v).startHead lbsy = (w.startHead lbsy).cloak v := by
  cases hq : w.label.queue <;> simp [State.startHead, hq]

theorem cloak_queuePack (id : Nat) : (w.cloak v).queuePack lbsy id = (w.queuePack lbsy id).cloak v := by
  by_cases idle : (w.modifyPack id fun q => { q with state := .labelQueued }).label.state = .idle <;>
    simp [State.queuePack, State.appendJob, idle]

theorem cloak_fillQueue : (w.cloak v).fillQueue lbsy = (w.fillQueue lbsy).cloak v := by
  have queued : ∀ (l : List Nat) (w : State),
      l.foldl (fun t id => t.queuePack lbsy id) (w.cloak v) = (l.foldl (fun t id => t.queuePack lbsy id) w).cloak v := by
    intro l
    induction l with
    | nil => exact fun w => rfl
    | cons id l ih =>
      intro w
      rw [List.foldl_cons, cloak_queuePack, ih, List.foldl_cons]
  exact queued _ w

end

end Sys2Proof.Machine

end

section
/-! SUPPORT. The state that a RESTART and a warm start leave, from any port units, claims and retention domain. -/

namespace Sys2Proof.Machine

section

variable (s : State) (ports : Ports) (claims : Claims) (retention : Retention) (why : HoldReason) (eye lbsy : Bool)

/-- The state in which the ports, the claims and the retention domain have been set and the other blocks not yet. -/
def State.started : State := { s with ports := ports, claims := claims, retention := retention }

/-- The charges, kilns and tracker of a restart over the label queue as it stands. -/
def State.rebuiltUnder : State := ((s.started ports claims retention).restartCharges why).restartTracker eye

/-- What the label queue is refilled from. -/
def State.relabelled : State :=
  { s with
    charges := (s.restartCharges why).charges
    packs := { s.packs with packs := s.packs.packs.map Pack.unqueued, blocked := false }
    label := s.label.emptied }

/-- Every block rebuilt, before the RESTART records. -/
def State.rebuiltBlocks : State := ((s.relabelled why).fillQueue lbsy).cloak (s.rebuiltUnder ports claims retention why eye)

theorem restartBlocks_eq : (s.started ports claims retention).restartBlocks why eye lbsy =
    (s.rebuiltBlocks ports claims retention why eye lbsy).restartRecords
      (s.rebuiltBlocks ports claims retention why eye lbsy).occupied := by
  have label : ((((s.started ports claims retention).restartCharges why).restartTracker eye).restartPacks).restartLabel lbsy =
      s.rebuiltBlocks ports claims retention why eye lbsy :=
    cloak_fillQueue (s.relabelled why) (s.rebuiltUnder ports claims retention why eye) lbsy
  rw [State.restartBlocks, label]

theorem relabelled_within : Within (fun b => match b with | .packs | .label => true | _ => false) (s.relabelled why)
    ((s.relabelled why).fillQueue lbsy) :=
  (Within.refl _).fillQueue rfl rfl lbsy

end

section

variable {s : State} {ports : Ports} {claims : Claims} {retention : Retention} {why : HoldReason} {eye lbsy : Bool}

theorem restartBlocks_blocks :
    RestartedBlocks s ((s.started ports claims retention).restartBlocks why eye lbsy) why eye lbsy := by
  rw [restartBlocks_eq]
  generalize hu : s.rebuiltBlocks ports claims retention why eye lbsy = u
  have filled := (relabelled_within s why lbsy).blocks
  have records := (restartRecords_within u.occupied (s := u)).blocks
  have charges : u.charges = (s.restartCharges why).charges := hu ▸ filled .charges rfl
  have library : u.library = s.library := hu ▸ filled .library rfl
  have clock : u.clock = s.clock := hu ▸ filled .clock rfl
  have charges' := Eq.trans (records .charges rfl) charges
  have kilns := records .kilns rfl
  refine ⟨restartedCharges_of_eq charges' (Eq.trans kilns (hu ▸ rfl)), Eq.trans (records .tracker rfl) (hu ▸ rfl),
    ⟨_, rfl, ?_⟩, fun h => ?_, Eq.trans (records .library rfl) library, Eq.trans (records .lots rfl) (hu ▸ rfl),
    Eq.trans (records .clock rfl) clock, Eq.trans (records .queue rfl) (hu ▸ rfl)⟩
  · rw [charges']
    exact ⟨Eq.trans (records .packs rfl) (hu ▸ rfl), Eq.trans (records .label rfl) (hu ▸ rfl)⟩
  · have trace : u.trace = s.trace := hu ▸ rfl
    rw [restartList_congr (records .charges rfl) kilns (records .clock rfl), restartList_eq, ← trace]
    exact (restartRecords_after u.occupied u (trace ▸ h.mono (occupied_length u))).1

/-- The pending sets of a restart whose port units hold RESTARTED alone under their default enable sets. -/
theorem restartBlocks_pending (hp : ∀ q, (ports.get q).pending = 0x040000 ∧ (ports.get q).enabled = defaultEnable q) :
    RestartedPending s ((s.started ports claims retention).restartBlocks why eye lbsy) := by
  rw [restartBlocks_eq]
  generalize hu : s.rebuiltBlocks ports claims retention why eye lbsy = u
  have port : ∀ q, u.port q = ports.get q := fun q => hu ▸ rfl
  have records := (restartRecords_within u.occupied (s := u)).blocks
  have trace : u.trace = s.trace := hu ▸ rfl
  constructor
  · intro q
    rcases restartRecords_pending q u.occupied u with e | e <;>
      rw [e, port, (hp q).1]
    · exact .inl rfl
    · rw [(hp q).2]
      cases q
      · exact .inl rfl
      · exact .inl rfl
      · exact .inr rfl
  · intro h q
    rw [restartList_congr (records .charges rfl) (records .kilns rfl) (records .clock rfl), restartList_eq, List.length_map,
      (restartRecords_after u.occupied u (trace ▸ h.mono (occupied_length u))).2, port, (hp q).1, (hp q).2, trace]
    cases q <;> cases s.trace.markReached u.occupied.length <;> rfl

/-- Records raise alerts at the port units, which stand otherwise as they were set. -/
theorem restartBlocks_port (q : Port) : ∃ pending, ((s.started ports claims retention).restartBlocks why eye lbsy).port q =
    { ports.get q with pending := pending } := by
  rw [restartBlocks_eq]
  obtain ⟨m, h⟩ := (restartRecords_within (s.rebuiltBlocks ports claims retention why eye lbsy).occupied
    (s := s.rebuiltBlocks ports claims retention why eye lbsy)).alerts q
  exact ⟨_, h⟩

end

end Sys2Proof.Machine

end

section
/-! SUPPORT. The port units and claims of a RESTART and of the starts. -/

namespace Sys2Proof.Machine

variable {s t : State} {p : Port} {r : Request}

theorem restartPorts_started (s : State) (p : Port) (r : Request) :
    s.restartPorts p r = s.started (s.restartPorts p r).ports (s.claims.map ClaimRecord.restarted) s.retention := rfl

/-- The retention domain once a warm start completes (R199). -/
def Retention.warm (x : Retention) : Retention := { x with startKind := .warm, phase := .running }

theorem warmStarted_started (s : State) (eye lbsy : Bool) : s.warmStarted eye lbsy =
    (s.started s.ports.begun .free s.retention.warm).restartBlocks .power eye lbsy := rfl

/-- Only RESTARTED is pending: the answer's own ANSWER_READY is not enabled by default (R14, R19). -/
theorem restartPorts_pending (s : State) (p : Port) (r : Request) (q : Port) :
    ((s.restartPorts p r).ports.get q).pending = 0x040000 ∧ ((s.restartPorts p r).ports.get q).enabled = defaultEnable q := by
  change ((s.restartPorts p r).port q).pending = _ ∧ ((s.restartPorts p r).port q).enabled = _
  have set : ∀ q, restartedSet &&& defaultEnable q = 0x040000 ∧
      restartedSet &&& defaultEnable q ||| Cause.answerReady.bit &&& defaultEnable q = 0x040000 := by
    intro q; cases q <;> decide
  rw [restartPorts_port]
  split
  · exact ⟨(set q).2, rfl⟩
  · exact ⟨(set q).1, rfl⟩

theorem begun_pending (u : Ports) (q : Port) :
    (u.begun.get q).pending = 0x040000 ∧ (u.begun.get q).enabled = defaultEnable q := by
  rw [begun_port]
  cases q <;> exact ⟨rfl, rfl⟩

/-! ## A cut warm start -/

theorem restartRecords_eq : ∀ (l : List (KilnNo × Nat)) (s : State),
    s.restartRecords l = { s with trace := (s.restartRecords l).trace, ports := (s.restartRecords l).ports }
  | [], _ => rfl
  | x :: l, s => by
    rw [restartRecords_cons, restartRecords_eq l]
    rw [State.writeTrace_eq]
    rfl

section

variable (s : State) (packs : Bool) (n : Nat)

theorem warmCut_eq (charges : Bool) : s.warmCut charges packs n = { s with
    charges := (s.warmCut charges packs n).charges, kilns := (s.warmCut charges packs n).kilns
    packs := (s.warmCut charges packs n).packs, trace := (s.warmCut charges packs n).trace } := by
  cases charges with
  | false => cases packs <;> rfl
  | true =>
    unfold State.warmCut
    simp only [if_true]
    rw [restartRecords_eq]
    cases packs <;> rfl

theorem warmCut_packs (charges : Bool) : (s.warmCut charges packs n).packs =
    if packs then { s.packs with packs := s.packs.packs.map Pack.unqueued } else s.packs := by
  have records : ((s.restartCharges .power).restartRecords ((s.restartCharges .power).occupied.take n)).packs = s.packs :=
    (restartRecords_within _).blocks .packs rfl
  cases charges <;> cases packs
  · rfl
  · rfl
  · exact records
  · exact congrArg (fun x : PackBuilder => { x with packs := x.packs.map Pack.unqueued }) records

/-- Before the charges are restarted nothing of them, the kilns or the trace has changed. -/
theorem warmCut_idle : (s.warmCut false packs n).charges = s.charges ∧ (s.warmCut false packs n).kilns = s.kilns ∧
    (s.warmCut false packs n).trace = s.trace := by
  cases packs <;> exact ⟨rfl, rfl, rfl⟩

/-- Once the charges are restarted, the first `n` RESTART records are written. -/
theorem warmCut_charges : RestartedCharges s (s.warmCut true packs n) .power ∧
    (s.trace.Clear 12 → (s.warmCut true packs n).trace = s.trace.after ((s.warmCut true packs n).restartList.take n)) := by
  generalize hu : s.restartCharges .power = u
  have records := (restartRecords_within (u.occupied.take n) (s := u)).blocks
  have cut : (s.warmCut true packs n).charges = (u.restartRecords (u.occupied.take n)).charges ∧
      (s.warmCut true packs n).kilns = (u.restartRecords (u.occupied.take n)).kilns ∧
      (s.warmCut true packs n).clock = (u.restartRecords (u.occupied.take n)).clock ∧
      (s.warmCut true packs n).trace = (u.restartRecords (u.occupied.take n)).trace := by
    subst hu
    cases packs <;> exact ⟨rfl, rfl, rfl, rfl⟩
  obtain ⟨charges, kilns, clock, trace⟩ := cut
  have charges := charges.trans (records .charges rfl)
  have kilns := kilns.trans (records .kilns rfl)
  refine ⟨restartedCharges_of_eq (hu ▸ charges) (hu ▸ kilns), fun h => ?_⟩
  have log : u.trace = s.trace := hu ▸ rfl
  have room : (u.occupied.take n).length ≤ 12 := (List.length_take_le' _ _).trans (occupied_length u)
  rw [restartList_congr charges kilns (clock.trans (records .clock rfl)), restartList_eq, ← List.map_take, trace, ← log]
  exact (restartRecords_after _ u (log ▸ h.mono room)).1

end

end Sys2Proof.Machine

open Sys2Proof Sys2Proof.Machine in
/-- Settles O53: the ports and claims first, then every other block. -/
theorem restartRebuildsTheVolatileState : Obligations.RestartRebuildsTheVolatileState := by
  unfold Obligations.RestartRebuildsTheVolatileState
  intro p r eye lbsy s
  refine ⟨exec_restart_idle, fun hr => ⟨s.restarted p r eye lbsy, exec_restart_taken hr, ?_⟩⟩
  have kept := (within_restartBlocks (s.restartPorts p r) .restart eye lbsy).blocks
  rw [restarted_eq]
  refine ⟨?_, ?_, kept .retention rfl, fun res => ?_, fun q => ?_⟩
  · rw [restartPorts_started]
    exact restartBlocks_blocks
  · rw [restartPorts_started]
    exact restartBlocks_pending (restartPorts_pending s p r)
  · have claims : ((s.restartPorts p r).restartBlocks .restart eye lbsy).claims = s.claims.map ClaimRecord.restarted :=
      kept .claims rfl
    rw [State.claim, claims, Claims.get_map]
    rfl
  · obtain ⟨pending, unit⟩ : ∃ pending, ((s.restartPorts p r).restartBlocks .restart eye lbsy).port q =
        { (s.restartPorts p r).port q with pending := pending } := by
      rw [restartPorts_started]
      exact restartBlocks_port q
    rw [unit, restartPorts_port]
    by_cases hq : q = p
    · rw [if_pos hq, if_pos hq]
      rfl
    · rw [if_neg hq, if_neg hq]
      rfl

open Sys2Proof Sys2Proof.Machine in
/-- Settles O54, event by event. -/
theorem startsFollowTheMarker : Obligations.StartsFollowTheMarker := by
  unfold Obligations.StartsFollowTheMarker
  intro s cutFrame begun
  refine ⟨⟨_, exec_powerOnReset s, quiet_port s, rfl⟩, fun eye hp hm => ⟨?_, ?_⟩, fun eye cut h => ?_,
    fun eye lbsy hp hm => ⟨?_, ?_⟩, fun eye lbsy e h => exec_warmStart_idle h, fun hp => ⟨?_, fun low => exec_mainPowerFail_off hp⟩,
    fun hp => ⟨?_, fun low => ⟨_, exec_mainPowerFail_on hp, quiet_port s, rfl⟩⟩, fun hp => ?_⟩
  · exact congrArg _ (if_neg fun h => nomatch h.2.2)
  · refine ⟨s.coldStarted eye, congrArg _ (if_pos ⟨hp, hm, rfl⟩), fun q => ?_, rfl⟩
    exact (begun_port s.ports q).trans (by cases q <;> rfl)
  · exact congrArg _ (if_neg fun h' => h ⟨h'.1, h'.2.1⟩)
  · have kept := (within_restartBlocks (s.started s.ports.begun .free s.retention.warm) .power eye lbsy).blocks
    refine ⟨_, exec_warmStart_completes ⟨hp, hm⟩, ?_⟩
    rw [warmStarted_started]
    refine ⟨restartBlocks_blocks, restartBlocks_pending (begun_pending s.ports), kept .retention rfl,
      fun res => ?_, fun q => ?_⟩
    · have claims : ((s.started s.ports.begun .free s.retention.warm).restartBlocks .power eye lbsy).claims = .free :=
        kept .claims rfl
      rw [State.claim, claims]
      exact reset_claim res
    · obtain ⟨pending, unit⟩ := restartBlocks_port (s := s) (ports := s.ports.begun) (claims := .free)
        (retention := s.retention.warm) (why := .power) (eye := eye) (lbsy := lbsy) q
      rw [unit, begun_port]
      rfl
  · exact fun charges packs records => ⟨_, exec_warmStart_cut ⟨hp, hm⟩, warmCut_eq s packs records charges,
      fun hc => hc ▸ warmCut_idle s packs records, fun hc => hc ▸ warmCut_charges s packs records,
      warmCut_packs s packs records charges⟩
  · exact congrArg _ (if_pos hp)
  · exact congrArg _ (if_neg hp)
  · refine ⟨fun c hc => exec_idle hp (.inl hc), fun p i => exec_idle hp (.inr (.inr ⟨p, i, rfl⟩)), fun k => ?_, ?_, ?_,
      fun b e => ⟨?_, ?_⟩, ?_, fun lbsy ld => ?_, ?_, ?_, fun p eye lbsy => exec_restart_idle fun r h => hp h.1⟩
    all_goals exact exec_idle hp (.inr (.inl ⟨rfl, rfl, nofun, nofun⟩))

end

section
/-! SUPPORT. A take by what its act says, the claim check before the body (R28), and the claim requests by the owner of the
record (R24 to R27). -/

namespace Sys2Proof.Machine

section

variable {s t : State} {p : Port} {r : Request} {code : Byte} {res : Resource} {c : Instr}

/-- A take of an offered request whose act refuses it. -/
theorem exec_take_refused {e : Reason} (ht : takenBy c = some (p, code)) (hr : Offers s p code r)
    (ha : actOf c p r s = .error e) : exec c s = .next (s.refusedWith p r e) := by
  obtain ⟨phase, slot, kind⟩ := hr
  exact (exec_take ht s).trans (takeRequest_refused phase slot kind ha)

/-- A take of an offered request on which its act acts. -/
theorem exec_take_done {b : List Field} (ht : takenBy c = some (p, code)) (hr : Offers s p code r)
    (ha : actOf c p r s = .ok (t, b)) : exec c s = .next (t.done p r b) := by
  obtain ⟨phase, slot, kind⟩ := hr
  exact (exec_take ht s).trans (takeRequest_done phase slot kind ha)

/-! ## The claim check -/

theorem claimCheck_not_owns (h : ¬Owns s p res) : claimCheck res p s = .error .notOwner := by
  simp [claimCheck, require, h]

/-- An act that begins with a claim check that fails goes no further. -/
theorem claimCheck_bind_not_owns {α : Type} (h : ¬Owns s p res) (act : Unit → Except Reason α) :
    (claimCheck res p s >>= act) = .error .notOwner := by
  rw [claimCheck_not_owns h]; rfl

/-- The act of every gated take begins with its claim check. -/
theorem actOf_gated (hg : gatedBy c = some res) (ho : ¬Owns s p res) : actOf c p r s = .error .notOwner := by
  cases c with
  | openRun | addSource | advanceSource | closeRun | abortRun | putSortEntry | removeSortEntry | clearSortMap | setBinTarget
  | putSpecies | deleteSpecies | putSchedule | deleteSchedule | putGradeText | putLengthBands | putParameter
  | reprint | haltPrinter | resumePrinter => cases hg; exact claimCheck_bind_not_owns ho _
  | _ => cases hg

/-- Field 1 of a body whose first byte is the number of a kiln names that kiln. -/
theorem readKiln_number {b : Byte} {k : KilnNo} (rest : List Byte) (hb : b.toNat = k.val + 1) :
    readKiln (fieldsOf (b :: rest)) = .ok (k, { rest := rest, index := 2 }) := by
  rw [readKiln_named rest (by omega), hb, kilnOfNumber_succ]

theorem kilnCommand_not_owns {rule : KilnNo → Charge → Schedule → State → Option State} {k : KilnNo}
    (hk : readKilnOnly r.body = .ok k) (ho : ¬Owns s p (.kiln k)) : kilnCommand rule p r s = .error .notOwner := by
  rw [kilnCommand, hk]
  exact claimCheck_bind_not_owns ho _

/-- The act of every gated kiln take reads the kiln and then checks its claim, before any field that follows. -/
theorem actOf_gatedByKiln {b : Byte} {rest : List Byte} {k : KilnNo} (hg : gatedByKiln c = true) (body : r.body = b :: rest)
    (hb : b.toNat = k.val + 1) (ho : ¬Owns s p (.kiln k)) : actOf c p r s = .error .notOwner := by
  have field : readKiln (fieldsOf r.body) = .ok (k, { rest := rest, index := 2 }) := body ▸ readKiln_number rest hb
  have only : readKilnOnly r.body = .ok k := by rw [readKilnOnly, field]; rfl
  cases c with
  | load =>
    change loadAct p r s = _
    rw [loadAct, field]
    exact claimCheck_bind_not_owns ho _
  | unload =>
    change unloadAct p r s = _
    rw [unloadAct, field]
    exact claimCheck_bind_not_owns ho _
  | start | hold | resume | skipStep | stop => exact kilnCommand_not_owns only ho
  | _ => cases hg

/-! ## The claim requests -/

section

variable (hb : readResource r.body = .ok res)
include hb

theorem claimAct_free (ho : (s.claim res).owner = none) : claimAct p r s =
    .ok (s.setClaim res ⟨some p, (s.claim res).seized⟩, [.num 1 res.code, .flag false, .flag (s.claim res).seized]) := by
  simp [claimAct, fields, hb, ho, pure, Except.pure]

theorem claimAct_own (ho : (s.claim res).owner = some p) : claimAct p r s =
    .ok (s, [.num 1 res.code, .flag true, .flag (s.claim res).seized]) := by
  simp [claimAct, fields, hb, ho, pure, Except.pure]

theorem claimAct_held {q : Port} (ho : (s.claim res).owner = some q) (hq : q ≠ p) :
    claimAct p r s = .error (.heldBy q (s.claim res).seized) := by
  simp [claimAct, fields, hb, ho, hq]

theorem releaseAct_own (ho : (s.claim res).owner = some p) : releaseAct p r s =
    .ok (s.setClaim res ⟨none, false⟩, [.num 1 res.code, .flag (s.claim res).seized]) := by
  simp [releaseAct, fields, hb, ho, require, ClaimRecord.free, pure, Except.pure]

theorem releaseAct_not_own (ho : (s.claim res).owner ≠ some p) : releaseAct p r s = .error .notOwner := by
  simp [releaseAct, fields, hb, ho, require]

theorem seizeAct_eq : seizeAct p r s =
    .ok ((s.setClaim res ⟨some .Y, true⟩).claimLost (s.claim res).owner,
      [.num 1 res.code, .num 1 (ownerCode (s.claim res).owner), .flag (s.claim res).seized]) := by
  simp [seizeAct, fields, hb, pure, Except.pure]

end

/-- No other port loses a claim that was free or Y's. -/
theorem claimLost_idle {o : Option Port} (h : o = none ∨ o = some .Y) : s.claimLost o = s := by
  rcases h with rfl | rfl <;> rfl

/-- K and P hear of the claim they lose. -/
theorem claimLost_raises {q : Port} (h : q ≠ .Y) : s.claimLost (some q) = s.raiseAt q .claimLost := by
  cases q with
  | K | P => rfl
  | Y => exact absurd rfl h

end

end Sys2Proof.Machine

open Sys2Proof Sys2Proof.Machine in
/-- Settles O16: every gated act begins with its claim check, behind field 1 alone where that names the kiln. -/
theorem gatedTakesNeedTheClaim : Obligations.GatedTakesNeedTheClaim := by
  unfold Obligations.GatedTakesNeedTheClaim
  exact ⟨fun c p code res r s ht hg hr ho => exec_take_refused ht hr (actOf_gated hg ho),
    fun c p code b rest k r s ht hg hr body hb ho => exec_take_refused ht hr (actOf_gatedByKiln hg body hb ho)⟩

open Sys2Proof Sys2Proof.Machine in
/-- Settles O17, by what each of the three acts does for each owner of the record. -/
theorem claimRequestsActOnTheOwner : Obligations.ClaimRequestsActOnTheOwner := by
  unfold Obligations.ClaimRequestsActOnTheOwner
  intro p r res s hb
  refine ⟨fun hr ho => ?free, fun hr ho => ?own, fun q hr ho hq => ?held, fun hr ho => ?released, fun hr ho => ?notOwner,
    fun hr ho => ?seized, fun q hr ho hq => ?lost⟩
  case free => exact exec_take_done rfl hr (claimAct_free hb ho)
  case own => exact exec_take_done rfl hr (claimAct_own hb ho)
  case held => exact exec_take_refused rfl hr (claimAct_held hb ho hq)
  case released => exact exec_take_done rfl hr (releaseAct_own hb ho)
  case notOwner => exact exec_take_refused rfl hr (releaseAct_not_own hb ho)
  case seized => exact exec_take_done rfl hr ((seizeAct_eq (p := p) hb).trans (by rw [claimLost_idle ho]))
  case lost => exact exec_take_done rfl hr ((seizeAct_eq (p := p) hb).trans (by rw [ho, claimLost_raises hq]))

end

section
/-! SUPPORT. The library requests at their takes (chapter 3) and the parameter requests (R194 to R196). -/

namespace Sys2Proof.Machine

section

variable {s : State} {p : Port} {r : Request}

theorem require_true (e : Reason) : require true e = .ok () := rfl

theorem require_false (e : Reason) : require false e = .error e := rfl

/-! ## Species -/

/-- No present charge names a species exactly where the count of its users is 0 (R38). -/
theorem speciesUsers_eq_zero {n : Nat} : s.speciesUsers n = 0 ↔ ∀ c ∈ s.charges.entries, c.species ≠ n := by
  simp [State.speciesUsers]

theorem putSpeciesAct_eq {x : Species} (ho : Owns s p .library) (hb : readSpecies r.body = .ok x) :
    putSpeciesAct p r s = .ok (s.withLibrary { s.library with species := keyPut Species.code x s.library.species },
      [.num 1 x.code, .flag (s.species x.code).isSome]) := by
  rw [putSpeciesAct, claimCheck_owns ho, hb]; rfl

section
variable {n : Nat}

theorem deleteSpeciesAct_absent (ho : Owns s p .library) (hb : readOne 1 1 32 r.body = .ok n) (hn : s.species n = none) :
    deleteSpeciesAct p r s = .error .noSuch := by
  simp [deleteSpeciesAct, claimCheck_owns ho, hb, fields, hn, orRefuse]

theorem deleteSpeciesAct_present {x : Species} (ho : Owns s p .library) (hb : readOne 1 1 32 r.body = .ok n)
    (hn : s.species n = some x) : deleteSpeciesAct p r s = (require (s.speciesUsers n == 0) .inUse >>= fun _ =>
      .ok (s.withLibrary { s.library with species := keyErase Species.code n s.library.species }, [.num 1 n])) := by
  simp [deleteSpeciesAct, claimCheck_owns ho, hb, fields, hn, orRefuse, pure, Except.pure]

theorem speciesQueryAct_eq (hb : readOne 1 1 32 r.body = .ok n) :
    speciesQueryAct p r s = (orRefuse (s.species n) .noSuch >>= fun x =>
      .ok (s, [.num 1 n, .text x.label, .num 2 x.factor, .int 1 x.offset, .num 1 x.coefficient,
        .num 1 (s.speciesUsers n)])) := by
  rw [speciesQueryAct, hb]; rfl

/-! ## Schedules -/

theorem putScheduleAct_eq {x : Schedule} (ho : Owns s p .library) (hb : readSchedule r.body = .ok x) :
    putScheduleAct p r s = (require (s.inUse x.number == 0) .inUse >>= fun _ =>
      .ok (s.withLibrary { s.library with schedules := keyPut Schedule.number x s.library.schedules },
        [.num 1 x.number, .flag (s.schedule x.number).isSome, .num 1 x.steps.count])) := by
  rw [putScheduleAct, claimCheck_owns ho, hb]; rfl

theorem deleteScheduleAct_absent (ho : Owns s p .library) (hb : readOne 1 1 16 r.body = .ok n) (hn : s.schedule n = none) :
    deleteScheduleAct p r s = .error .noSuch := by
  simp [deleteScheduleAct, claimCheck_owns ho, hb, fields, hn, orRefuse]

theorem deleteScheduleAct_present {x : Schedule} (ho : Owns s p .library) (hb : readOne 1 1 16 r.body = .ok n)
    (hn : s.schedule n = some x) : deleteScheduleAct p r s = (require (s.inUse n == 0) .inUse >>= fun _ =>
      .ok (s.withLibrary { s.library with schedules := keyErase Schedule.number n s.library.schedules }, [.num 1 n])) := by
  simp [deleteScheduleAct, claimCheck_owns ho, hb, fields, hn, orRefuse, pure, Except.pure]

theorem scheduleQueryAct_eq (hb : readOne 1 1 16 r.body = .ok n) :
    scheduleQueryAct p r s = (orRefuse (s.schedule n) .noSuch >>= fun x => .ok (s, x.fields ++ [.num 1 (s.inUse n)])) := by
  rw [scheduleQueryAct, hb]; rfl

end

/-! ## Grade texts, length bands and parameters -/

theorem putGradeTextAct_eq {g : Nat} {t : Text} (ho : Owns s p .library) (hb : readGradeText r.body = .ok (g, t)) :
    putGradeTextAct p r s = .ok (if t.isEmpty then s
        else s.withLibrary { s.library with gradeTexts := s.library.gradeTexts.set (slot1 7 g) t },
      [.num 1 g, .text (s.library.gradeTexts.get (slot1 7 g))]) := by
  rw [putGradeTextAct, claimCheck_owns ho, hb]; rfl

theorem putLengthBandsAct_eq {l : List Band} (ho : Owns s p .library) (hb : readLengthBands r.body = .ok l) :
    putLengthBandsAct p r s = .ok (s.withLibrary { s.library with bands := bandsFrom s.library.bands l },
      s.library.bands.cells.flatMap fun b => [.num 2 b.bound, .text b.text]) := by
  rw [putLengthBandsAct, claimCheck_owns ho, hb]; rfl

theorem putParameterAct_number {n v : Nat} (ho : Owns s p .library) (hb : readParameter r.body = .ok (n, .number v)) :
    putParameterAct p r s = .ok (s.withLibrary { s.library with
        params := { s.library.params with values := s.library.params.values.set (slot1 16 n) v } },
      [.num 1 n, .num 2 (s.library.params.values.get (slot1 16 n)), .num 2 v]) := by
  rw [putParameterAct, claimCheck_owns ho, hb]; rfl

theorem putParameterAct_header {n : Nat} {t : Text} (ho : Owns s p .library)
    (hb : readParameter r.body = .ok (n, .header t)) :
    putParameterAct p r s = .ok (s.withLibrary { s.library with params := { s.library.params with header := t } },
      [.num 1 n, .text s.library.params.header, .text t]) := by
  rw [putParameterAct, claimCheck_owns ho, hb]; rfl

theorem parameterQueryAct_eq {n : Nat} (hb : readOne 1 0 18 r.body = .ok n) :
    parameterQueryAct p r s = .ok (s,
      if n = 0 then s.library.params.values.cells.map (.num 2) ++ [.text s.library.params.header]
      else if n = 18 then [.num 1 n, .text s.library.params.header]
      else [.num 1 n, .num 2 (s.library.params.values.get (slot1 16 n))]) := by
  rw [parameterQueryAct, hb]
  simp only [fields, ok_bind, pure, Except.pure, State.param]
  split
  · rfl
  · split <;> rfl

end

/-! ## Bodies of the library requests -/

theorem readGradeText_bytes {g : Nat} {t : Text} (hg : 1 ≤ g ∧ g ≤ 8) (ht : t.length ≤ 6) (hp : t.all printable = true)
    (rest : List Byte) : readGradeText (beBytes 1 g ++ (Field.text t).bytes ++ rest) = .ok (g, t) := by
  simp (disch := omega) only [readGradeText, fieldsOf, List.append_assoc, readNat_beBytes,
    readText_bytes ⟨Nat.zero_le _, ht⟩ _ hp, ok_bind]
  rfl

/-- A band whose bound lies above `prev` in the range of R50, with a text of 1 to 4 printable characters. -/
def Band.Fits (prev : Nat) (b : Band) : Prop :=
  prev < b.bound ∧ 500 ≤ b.bound ∧ b.bound ≤ 7500 ∧ 1 ≤ b.text.length ∧ b.text.length ≤ 4 ∧ b.text.all printable = true

/-- The bytes of the bands of a PUT LENGTH BANDS (R50). -/
def bandBytes (l : List Band) : List Byte := l.flatMap fun b => beBytes 2 b.bound ++ (Field.text b.text).bytes

theorem readBands_bytes (rest : List Byte) : ∀ (l : List Band) (prev i : Nat), (∀ b ∈ l, b.Fits prev) →
    (l.Pairwise fun a b => a.bound < b.bound) →
    ∃ j, readBands l.length prev { rest := bandBytes l ++ rest, index := i } = .ok (l, { rest := rest, index := j })
  | [], _, i, _, _ => ⟨i, rfl⟩
  | b :: l, prev, i, hf, hr => by
    obtain ⟨above, low, high, least, most, chars⟩ := hf b (List.mem_cons_self ..)
    obtain ⟨next, later⟩ := List.pairwise_cons.1 hr
    have fits : ∀ a ∈ l, a.Fits b.bound := fun a ha => ⟨next a ha, (hf a (List.mem_cons_of_mem _ ha)).2⟩
    obtain ⟨j, tail⟩ := readBands_bytes rest l b.bound (i + 2) fits later
    have bound := readNatIf_beBytes (w := 2) (n := b.bound)
      (ok := fun v => decide (500 ≤ v) && decide (v ≤ 7500) && decide (prev < v)) (by simp [above, low, high]) (by omega)
      ((Field.text b.text).bytes ++ (bandBytes l ++ rest)) i
    have text := readText_bytes (lo := 1) (hi := 4) ⟨least, most⟩ (by omega) chars (bandBytes l ++ rest) (i + 1)
    refine ⟨j, ?_⟩
    have body : bandBytes (b :: l) ++ rest =
        beBytes 2 b.bound ++ ((Field.text b.text).bytes ++ (bandBytes l ++ rest)) := by
      simp [bandBytes]
    rw [body]
    simp only [List.length_cons, readBands, bound, text, tail, ok_bind]
    rfl

theorem readLengthBands_none (rest : List Byte) : readLengthBands (beBytes 1 0 ++ rest) = .ok [] := by
  simp only [readLengthBands, fieldsOf, readNatOr_beBytes (w := 1) (n := 0) (.inl ⟨le_rfl, le_rfl⟩) (by omega), ok_bind]
  rfl

theorem readLengthBands_bytes {l : List Band} (h8 : l.length = 8) (hr : l.Pairwise fun a b => a.bound < b.bound)
    (hf : ∀ b ∈ l, b.Fits 0) (rest : List Byte) : readLengthBands (beBytes 1 8 ++ bandBytes l ++ rest) = .ok l := by
  obtain ⟨j, bands⟩ := readBands_bytes rest l 0 2 hf hr
  simp only [readLengthBands, fieldsOf, List.append_assoc, readNatOr_beBytes (w := 1) (n := 8) (.inr rfl) (by omega),
    ok_bind]
  rw [← h8, bands]
  rfl

/-- Parameters 1 to 17 with their ranges (R194). -/
def rangedParams : List (Nat × Nat × Nat) :=
  [(1, 10, 100), (2, 5, 240), (3, 1, 60), (4, 2, 60), (5, 500, 800), (6, 1, 240), (7, 5, 240), (8, 0, 100), (9, 0, 150),
    (10, 1, 2), (11, 10, 1000), (12, 10, 1000), (13, 4, 64), (14, 100, 10000), (15, 1, 15), (16, 1, 15), (17, 1, 15)]

theorem paramRange_of_mem : ∀ x ∈ rangedParams, 1 ≤ x.1 ∧ x.1 ≤ 17 ∧ paramRange x.1 = x.2 ∧ x.2.2 < 65536 := by decide

theorem readParameter_number {n v : Nat} (hn : 1 ≤ n ∧ n ≤ 17) (hv : (paramRange n).1 ≤ v ∧ v ≤ (paramRange n).2)
    (hh : v < 65536) (rest : List Byte) : readParameter (beBytes 1 n ++ beBytes 2 v ++ rest) = .ok (n, .number v) := by
  simp (disch := omega) only [readParameter, fieldsOf, List.append_assoc, readNat_beBytes, ok_bind, if_neg]
  rfl

theorem readParameter_header {t : Text} (ht : t.length ≤ 16) (hp : t.all printable = true) (rest : List Byte) :
    readParameter (beBytes 1 18 ++ (Field.text t).bytes ++ rest) = .ok (18, .header t) := by
  simp (disch := omega) only [readParameter, fieldsOf, List.append_assoc, readNat_beBytes, ok_bind,
    readText_bytes ⟨Nat.zero_le _, ht⟩ _ hp]
  rfl

end Sys2Proof.Machine

open Sys2Proof Sys2Proof.Machine in
/-- Settles O18, by what each act says of a present and of an absent entry. -/
theorem speciesRequestsComplete : Obligations.SpeciesRequestsComplete := by
  unfold Obligations.SpeciesRequestsComplete
  intro p r s
  refine ⟨fun x hr ho hb => exec_take_done rfl hr (putSpeciesAct_eq ho hb), fun n hr ho hb => ⟨fun hn => ?absent,
    fun x hn free => ?free, fun x hn used => ?used⟩, fun n hr hb => ⟨fun hn => ?none, fun x hn => ?some⟩⟩
  case absent => exact exec_take_refused rfl hr (deleteSpeciesAct_absent ho hb hn)
  case free =>
    refine exec_take_done rfl hr ((deleteSpeciesAct_present ho hb hn).trans ?_)
    rw [speciesUsers_eq_zero.2 free]
    rfl
  case used =>
    have users : s.speciesUsers n ≠ 0 := fun h => by
      obtain ⟨c, hc, hcn⟩ := used
      exact speciesUsers_eq_zero.1 h c hc hcn
    refine exec_take_refused rfl hr ((deleteSpeciesAct_present ho hb hn).trans ?_)
    rw [beq_false_of_ne users]
    rfl
  case none => exact exec_take_refused rfl hr ((speciesQueryAct_eq (p := p) hb).trans (by rw [hn]; rfl))
  case some => exact exec_take_done rfl hr ((speciesQueryAct_eq (p := p) hb).trans (by rw [hn]; rfl))

open Sys2Proof Sys2Proof.Machine in
/-- Settles O19, by what each act says of a present and of an absent schedule, in use or not. -/
theorem scheduleRequestsComplete : Obligations.ScheduleRequestsComplete := by
  unfold Obligations.ScheduleRequestsComplete
  intro p r s
  refine ⟨fun x hr ho hb => ⟨fun free => ?put, fun used => ?kept⟩, fun n hr ho hb => ⟨fun hn => ?absent,
    fun x hn free => ?free, fun x hn used => ?used⟩, fun n hr hb => ⟨fun hn => ?none, fun x hn => ?some⟩⟩
  case put => exact exec_take_done rfl hr ((putScheduleAct_eq ho hb).trans (by rw [free]; rfl))
  case kept => exact exec_take_refused rfl hr ((putScheduleAct_eq ho hb).trans (by rw [beq_false_of_ne used]; rfl))
  case absent => exact exec_take_refused rfl hr (deleteScheduleAct_absent ho hb hn)
  case free => exact exec_take_done rfl hr ((deleteScheduleAct_present ho hb hn).trans (by rw [free]; rfl))
  case used =>
    exact exec_take_refused rfl hr ((deleteScheduleAct_present ho hb hn).trans (by rw [beq_false_of_ne used]; rfl))
  case none => exact exec_take_refused rfl hr ((scheduleQueryAct_eq (p := p) hb).trans (by rw [hn]; rfl))
  case some => exact exec_take_done rfl hr ((scheduleQueryAct_eq (p := p) hb).trans (by rw [hn]; rfl))

open Sys2Proof Sys2Proof.Machine in
/-- Settles O20: the bodies first, then each act. -/
theorem textBandAndParameterRequestsComplete : Obligations.TextBandAndParameterRequestsComplete := by
  unfold Obligations.TextBandAndParameterRequestsComplete
  refine ⟨fun rest => ⟨fun g t h1 h8 ht hp => readGradeText_bytes ⟨h1, h8⟩ ht hp rest, readLengthBands_none rest,
    fun l h8 hr hf => ?bands, fun n lo hi v mem hlo hhi => ?number, fun t ht hp => readParameter_header ht hp rest⟩,
    fun p r s => ⟨fun g t hr ho hb => ⟨fun ht => ?text, fun ht => ?shown⟩, fun l hr ho hb => ⟨fun h8 => ?eight,
      fun hl => ?none⟩, fun n v hr ho hb => exec_take_done rfl hr (putParameterAct_number ho hb),
      fun n t hr ho hb => exec_take_done rfl hr (putParameterAct_header ho hb),
      fun n hr hb => exec_take_done rfl hr (parameterQueryAct_eq (p := p) hb)⟩⟩
  case bands =>
    exact readLengthBands_bytes h8 hr (fun b hb => ⟨Nat.lt_of_lt_of_le (by decide) (hf b hb).1, hf b hb⟩) rest
  case number =>
    obtain ⟨h1, h17, ranges, high⟩ := paramRange_of_mem _ mem
    exact readParameter_number ⟨h1, h17⟩ (by rw [ranges]; exact ⟨hlo, hhi⟩) (Nat.lt_of_le_of_lt hhi high) rest
  case text =>
    refine exec_take_done rfl hr ((putGradeTextAct_eq ho hb).trans ?_)
    rw [List.isEmpty_eq_false_iff.2 ht]
    rfl
  case shown =>
    refine exec_take_done rfl hr ((putGradeTextAct_eq ho hb).trans ?_)
    rw [ht]
    rfl
  case eight =>
    refine exec_take_done rfl hr ((putLengthBandsAct_eq ho hb).trans ?_)
    rw [bandsFrom, dif_pos h8]
  case none =>
    refine exec_take_done rfl hr ((putLengthBandsAct_eq ho hb).trans ?_)
    rw [hl]
    rfl

end

section
/-! SUPPORT. A schedule read back from the bytes in which SCHEDULE QUERY reports it (R41 to R43, R48). -/

namespace Sys2Proof.Machine

/-! ## Pairs and flags -/

theorem readPair_bytes {checked : Bool} {dry depression : Nat} (hd : dry < 4096) (hp : depression < 4096)
    (h : checked = true → 200 ≤ dry ∧ dry ≤ 1100 ∧ depression ≤ 400) (rest : List Byte) (i : Nat) :
    readPair checked { rest := (Field.pair dry depression).bytes ++ rest, index := i } =
      .ok ((dry, depression), { rest := rest, index := i + 2 }) := by
  have len : (beBytes 3 (dry * 4096 + depression)).length = 3 := length_beBytes 3 _
  have value : beNat (beBytes 3 (dry * 4096 + depression)) = dry * 4096 + depression := beNat_beBytes (by omega)
  have high : (dry * 4096 + depression) / 4096 = dry := by omega
  have low : (dry * 4096 + depression) % 4096 = depression := by omega
  have long : ¬(beBytes 3 (dry * 4096 + depression) ++ rest).length < 3 := by
    rw [List.length_append, len]; omega
  simp only [readPair, Field.bytes, long, if_false, List.take_left' len, List.drop_left' len, value, high, low]
  cases checked with
  | false => simp
  | true => simp [h rfl]

theorem readFlag_bytes (b : Bool) (rest : List Byte) (i : Nat) :
    readFlag { rest := (Field.flag b).bytes ++ rest, index := i } = .ok (b, { rest := rest, index := i + 1 }) := by
  cases b <;> rfl

/-- A number that is read with a check which the phase's flag turns on. -/
theorem readChecked_beBytes {w n : Nat} {ok : Nat → Bool} (h : ok n = true) (hn : n < 256 ^ w) (rest : List Byte) (i : Nat) :
    readNatIf w ok { rest := (Field.num w n).bytes ++ rest, index := i } = .ok (n, { rest := rest, index := i + 1 }) :=
  readNatIf_beBytes h hn rest i

/-! ## The phases of the header -/

/-- Equalizing settings within the ranges of R41. -/
def Equalize.InRange (e : Equalize) : Prop :=
  200 ≤ e.dry ∧ e.dry ≤ 1100 ∧ e.depression ≤ 400 ∧ e.band ≤ 100 ∧ 1 ≤ e.maxOn ∧ e.maxOn ≤ 9999

/-- Conditioning settings within the ranges of R41. -/
def Conditioning.InRange (e : Conditioning) : Prop :=
  200 ≤ e.dry ∧ e.dry ≤ 1100 ∧ e.depression ≤ 400 ∧ 1 ≤ e.minutes ∧ e.minutes ≤ 9999

theorem readEqualize_bytes {x : Option Equalize} (h : ∀ e, x = some e → e.InRange) (rest : List Byte) (i : Nat) :
    readEqualize { rest := (equalizeFields x).flatMap Field.bytes ++ rest, index := i } =
      .ok (x, { rest := rest, index := i + 5 }) := by
  cases x with
  | none => rfl
  | some e =>
    obtain ⟨hl, hh, hp, hb, h1, hm⟩ := h e rfl
    have pair (r : List Byte) (j : Nat) := readPair_bytes (checked := true) (dry := e.dry) (depression := e.depression)
      (by omega) (by omega) (fun _ => ⟨hl, hh, hp⟩) r j
    have band (r : List Byte) (j : Nat) := readChecked_beBytes (w := 1) (n := e.band)
      (ok := fun n => !true || decide (n ≤ 100)) (by simp [hb]) (by omega) r j
    have maxOn (r : List Byte) (j : Nat) := readChecked_beBytes (w := 2) (n := e.maxOn)
      (ok := fun n => !true || (decide (1 ≤ n) && decide (n ≤ 9999))) (by simp [h1, hm]) (by omega) r j
    simp only [readEqualize, equalizeFields, List.flatMap_cons, List.flatMap_nil, List.append_assoc, readFlag_bytes, pair,
      band, maxOn, ok_bind, List.nil_append]
    rfl

theorem readConditioning_bytes {x : Option Conditioning} (h : ∀ e, x = some e → e.InRange) (rest : List Byte) (i : Nat) :
    readConditioning { rest := (conditioningFields x).flatMap Field.bytes ++ rest, index := i } =
      .ok (x, { rest := rest, index := i + 4 }) := by
  cases x with
  | none => rfl
  | some e =>
    obtain ⟨hl, hh, hp, h1, hm⟩ := h e rfl
    have pair (r : List Byte) (j : Nat) := readPair_bytes (checked := true) (dry := e.dry) (depression := e.depression)
      (by omega) (by omega) (fun _ => ⟨hl, hh, hp⟩) r j
    have minutes (r : List Byte) (j : Nat) := readChecked_beBytes (w := 2) (n := e.minutes)
      (ok := fun n => !true || (decide (1 ≤ n) && decide (n ≤ 9999))) (by simp [h1, hm]) (by omega) r j
    simp only [readConditioning, conditioningFields, List.flatMap_cons, List.flatMap_nil, List.append_assoc, readFlag_bytes,
      pair, minutes, ok_bind, List.nil_append]
    rfl

/-! ## The steps -/

/-- A MOISTURE step within the ranges of R42. -/
def MoistureStep.InRange (y : MoistureStep) : Prop :=
  200 ≤ y.dry ∧ y.dry ≤ 1100 ∧ y.depression ≤ 400 ∧ y.threshold ≤ 2000 ∧ y.minOn ≤ 9999 ∧ y.maxOn ≤ 9999

/-- A TIME step within the ranges of R42. -/
def TimeStep.InRange (y : TimeStep) : Prop :=
  200 ≤ y.dry ∧ y.dry ≤ 1100 ∧ y.depression ≤ 400 ∧ 1 ≤ y.duration ∧ y.duration ≤ 9999

theorem readNat_bytes {w lo hi n : Nat} (h : lo ≤ n ∧ n ≤ hi) (hn : n < 256 ^ w) (rest : List Byte) (i : Nat) :
    readNat w lo hi { rest := (Field.num w n).bytes ++ rest, index := i } = .ok (n, { rest := rest, index := i + 1 }) :=
  readNat_beBytes h hn rest i

/-- Steps whose thresholds never rise, the first at most `prev`, are read back one after the other (R42, R43). -/
theorem readMoistureSteps_bytes (rest : List Byte) : ∀ (l : List MoistureStep) (prev i : Nat), (∀ y ∈ l, y.InRange) →
    (∀ y ∈ l, y.threshold ≤ prev) → (l.Pairwise fun a b => b.threshold ≤ a.threshold) →
    ∃ j, readMoistureSteps l.length prev { rest := (l.flatMap MoistureStep.fields).flatMap Field.bytes ++ rest, index := i } =
      .ok (l, { rest := rest, index := j })
  | [], _, i, _, _, _ => ⟨i, rfl⟩
  | y :: l, prev, i, hr, hp, hf => by
    obtain ⟨hl, hh, hd, ht, hn, hm⟩ := hr y (List.mem_cons_self ..)
    obtain ⟨next, later⟩ := List.pairwise_cons.1 hf
    obtain ⟨j, tail⟩ := readMoistureSteps_bytes rest l y.threshold (i + 5)
      (fun a ha => hr a (List.mem_cons_of_mem _ ha)) next later
    have below := hp y (List.mem_cons_self ..)
    have pair (r : List Byte) (j : Nat) := readPair_bytes (checked := true) (dry := y.dry) (depression := y.depression)
      (by omega) (by omega) (fun _ => ⟨hl, hh, hd⟩) r j
    refine ⟨j, ?_⟩
    simp (disch := omega) only [List.length_cons, readMoistureSteps, MoistureStep.fields, List.flatMap_cons,
      List.flatMap_nil, List.flatMap_append, List.append_assoc, List.nil_append, pair, readNat_bytes, ok_bind, tail]
    rfl

theorem readTimeStep_bytes {y : TimeStep} (h : y.InRange) (rest : List Byte) (i : Nat) :
    readTimeStep { rest := y.fields.flatMap Field.bytes ++ rest, index := i } =
      .ok (y, { rest := rest, index := i + 3 }) := by
  obtain ⟨hl, hh, hd, h1, hm⟩ := h
  have pair (r : List Byte) (j : Nat) := readPair_bytes (checked := true) (dry := y.dry) (depression := y.depression)
    (by omega) (by omega) (fun _ => ⟨hl, hh, hd⟩) r j
  simp (disch := omega) only [readTimeStep, TimeStep.fields, List.flatMap_cons, List.flatMap_nil, List.append_assoc,
    List.nil_append, pair, readNat_bytes, ok_bind]
  rfl

theorem readTimeSteps_bytes (rest : List Byte) : ∀ (l : List TimeStep) (i : Nat), (∀ y ∈ l, y.InRange) →
    ∃ j, readMany readTimeStep l.length { rest := (l.flatMap TimeStep.fields).flatMap Field.bytes ++ rest, index := i } =
      .ok (l, { rest := rest, index := j })
  | [], i, _ => ⟨i, rfl⟩
  | y :: l, i, hr => by
    obtain ⟨j, tail⟩ := readTimeSteps_bytes rest l (i + 3) fun a ha => hr a (List.mem_cons_of_mem _ ha)
    refine ⟨j, ?_⟩
    simp only [List.length_cons, readMany, List.flatMap_cons, List.flatMap_append, List.append_assoc,
      readTimeStep_bytes (hr y (List.mem_cons_self ..)), tail]

/-- The steps of a schedule within the ranges of R42, thresholds never rising (R43). -/
def Steps.InRange : Steps → Prop
  | .moisture l => (∀ y ∈ l, y.InRange) ∧ l.Pairwise fun a b => b.threshold ≤ a.threshold
  | .time l => ∀ y ∈ l, y.InRange

theorem readSteps_bytes {st : Steps} (h : st.InRange) (rest : List Byte) (i : Nat) :
    ∃ j, readSteps st.kindCode st.count { rest := st.fields.flatMap Field.bytes ++ rest, index := i } =
      .ok (st, { rest := rest, index := j }) := by
  cases st with
  | moisture l =>
    obtain ⟨ranges, falling⟩ := h
    obtain ⟨j, read⟩ := readMoistureSteps_bytes rest l 2000 i ranges (fun y hy => (ranges y hy).2.2.2.1) falling
    exact ⟨j, by simp only [readSteps, Steps.kindCode, Steps.count, Steps.fields, if_true, read, ok_bind]; rfl⟩
  | time l =>
    obtain ⟨j, read⟩ := readTimeSteps_bytes rest l i h
    exact ⟨j, by
      simp only [readSteps, Steps.kindCode, Steps.count, Steps.fields, show ¬2 = 1 from nofun, if_false, read, ok_bind]
      rfl⟩

theorem kindCode_range (st : Steps) : 1 ≤ st.kindCode ∧ st.kindCode ≤ 2 := by
  cases st <;> simp [Steps.kindCode]

end Sys2Proof.Machine

open Sys2Proof Sys2Proof.Machine in
/-- Settles O21, field by field of the header and then step by step. -/
theorem putScheduleReadsBackWhatQueryReports : Obligations.PutScheduleReadsBackWhatQueryReports := by
  unfold Obligations.PutScheduleReadsBackWhatQueryReports
  intro x rest number target ramp equalize conditioning coolEnd coolMax count steps
  have kind := kindCode_range x.steps
  have ranges : x.steps.InRange := by
    cases h : x.steps <;> rw [h] at steps <;> exact steps
  obtain ⟨j, read⟩ := readSteps_bytes ranges rest 17
  simp (disch := omega) only [readSchedule, fieldsOf, Schedule.fields, List.flatMap_cons, List.flatMap_nil,
    List.flatMap_append, List.append_assoc, List.nil_append, readNat_bytes, readEqualize_bytes equalize,
    readConditioning_bytes conditioning, read, ok_bind]
  rfl

end

section
/-! SUPPORT. The roundings of a board's figures (R110 to R113) and the search for its length band (R51). -/

namespace Sys2Proof.Machine

/-! ## Rounding -/

/-- `roundHalfUp n d` is the whole number nearest to `n / d`, the larger of two. -/
theorem roundHalfUp_bounds (n : Nat) {d : Nat} (hd : 0 < d) :
    2 * d * roundHalfUp n d ≤ 2 * n + d ∧ 2 * n + d < 2 * d * (roundHalfUp n d + 1) :=
  ⟨Nat.mul_div_le _ _, Nat.lt_mul_div_succ _ (by omega)⟩

/-- Halves go up where the value is not negative. -/
theorem roundHalfAway_of_nonneg {n : Int} (hn : 0 ≤ n) {d : Nat} (hd : 0 < d) :
    2 * (d : Int) * roundHalfAway n d ≤ 2 * n + d ∧ 2 * n + d < 2 * (d : Int) * (roundHalfAway n d + 1) := by
  obtain ⟨m, rfl⟩ := Int.eq_ofNat_of_zero_le hn
  obtain ⟨lo, hi⟩ := roundHalfUp_bounds m hd
  rw [roundHalfAway, if_pos hn, Int.toNat_natCast]
  exact ⟨by exact_mod_cast lo, by exact_mod_cast hi⟩

/-- Halves go down where the value is not positive. -/
theorem roundHalfAway_of_nonpos {n : Int} (hn : n ≤ 0) {d : Nat} (hd : 0 < d) :
    2 * n - d ≤ 2 * (d : Int) * roundHalfAway n d ∧ 2 * (d : Int) * (roundHalfAway n d - 1) < 2 * n - d := by
  have mirrored : roundHalfAway n d = -roundHalfAway (-n) d := by
    rcases hn.lt_or_eq with h | rfl
    · rw [roundHalfAway, if_neg (by omega), roundHalfAway, if_pos (by omega)]
    · have zero : roundHalfUp 0 d = 0 := Nat.div_eq_of_lt (by omega)
      simp [roundHalfAway, zero]
  obtain ⟨lo, hi⟩ := roundHalfAway_of_nonneg (n := -n) (by omega) hd
  rw [mirrored]
  constructor <;> linarith

/-! ## Classes (R112) -/

section
variable {tg wet dry reading : Nat} {sat : Bool}

theorem classOf_wet (h : sat = true ∨ tg + wet < reading) : classOf tg wet dry reading sat = .wet :=
  if_pos (by simpa using h)

theorem classOf_overdry (hs : sat = false) (hw : reading ≤ tg + wet) (hd : reading + dry < tg) :
    classOf tg wet dry reading sat = .overdry := by
  rw [classOf, if_neg (by simp [hs, hw]), if_pos (by omega)]

theorem classOf_ok (hs : sat = false) (hw : reading ≤ tg + wet) (hd : tg ≤ reading + dry) :
    classOf tg wet dry reading sat = .ok := by
  rw [classOf, if_neg (by simp [hs, hw]), if_neg (by omega)]

/-- One of the three cases holds. -/
theorem class_cases (tg wet dry reading : Nat) (sat : Bool) :
    (sat = true ∨ tg + wet < reading) ∨ (sat = false ∧ reading ≤ tg + wet ∧ reading + dry < tg) ∨
      (sat = false ∧ reading ≤ tg + wet ∧ tg ≤ reading + dry) := by
  cases sat with
  | true => exact .inl (.inl rfl)
  | false => simp only [true_and, Bool.false_eq_true, false_or]; omega

end

/-! ## Bands (R51) -/

section
variable {t : Table Band 8} {length : Nat}

theorem bandOf_first {i : Fin 8} (hi : length ≤ (t.get i).bound) (hj : ∀ j : Fin 8, j < i → (t.get j).bound < length) :
    bandOf t length = i.val + 1 := by
  have found : t.cells.findIdx? (fun b => decide (length ≤ b.bound)) = some i.val := by
    refine List.findIdx?_eq_some_iff_getElem.2 ⟨by rw [t.size]; exact i.isLt, by simpa [Table.get] using hi, ?_⟩
    intro j hlt
    have below := hj ⟨j, by omega⟩ hlt
    simpa [Table.get] using below
  rw [bandOf, found]

theorem bandOf_above (h : ∀ i : Fin 8, (t.get i).bound < length) : bandOf t length = 8 := by
  have none : t.cells.findIdx? (fun b => decide (length ≤ b.bound)) = none := by
    refine List.findIdx?_eq_none_iff.2 fun b hb => ?_
    obtain ⟨i, hi, rfl⟩ := List.getElem_of_mem hb
    have below := h ⟨i, by rw [← t.size]; exact hi⟩
    simpa [Table.get] using below
  rw [bandOf, none]

end

end Sys2Proof.Machine

open Sys2Proof Sys2Proof.Machine in
/-- Settles O46: the two roundings, the three classes and the band. -/
theorem boardFiguresRoundAsStated : Obligations.BoardFiguresRoundAsStated := by
  unfold Obligations.BoardFiguresRoundAsStated
  refine ⟨fun sp raw t => ⟨_, _, rfl, ?low, ?high, fun ht => ?warm, fun ht => ?cold⟩,
    fun tg wet dry reading sat => ?classes, fun th w l => roundHalfUp_bounds (th * w * l) (d := 1000) (by decide),
    fun t length => ⟨fun i hi hj => bandOf_first hi hj, bandOf_above⟩⟩
  case low => exact_mod_cast (roundHalfUp_bounds (raw * sp.factor) (d := 1024) (by decide)).1
  case high => exact_mod_cast (roundHalfUp_bounds (raw * sp.factor) (d := 1024) (by decide)).2
  case warm =>
    exact roundHalfAway_of_nonneg (Int.mul_nonneg (by omega) (Int.natCast_nonneg _)) (d := 10) (by decide)
  case cold =>
    exact roundHalfAway_of_nonpos (Int.mul_nonpos_of_nonpos_of_nonneg (by omega) (Int.natCast_nonneg _)) (d := 10) (by decide)
  case classes =>
    rcases class_cases tg wet dry reading sat with h | ⟨hs, hw, hd⟩ | ⟨hs, hw, hd⟩
    · rw [classOf_wet h]
      have other : ¬(sat = false ∧ reading ≤ tg + wet) := fun ⟨hs, hw⟩ => by
        rcases h with h | h
        · rw [hs] at h; cases h
        · omega
      exact ⟨iff_of_true rfl h, iff_of_false nofun fun h => other ⟨h.1, h.2.1⟩,
        iff_of_false nofun fun h => other ⟨h.1, h.2.1⟩⟩
    · rw [classOf_overdry hs hw hd]
      simp [hs, hw, hd]
    · rw [classOf_ok hs hw hd]
      simp [hs, hw, hd]

end

section
/-! SUPPORT. LOAD at its take (R59): each check, and the tie. -/

namespace Sys2Proof.Machine

section

variable {s : State} {p : Port} {r : Request} {k : KilnNo} {id n : Nat}

/-- A body that LOAD reads whole names its kiln in field 1. -/
theorem readLoad_kiln {b : List Byte} (h : readLoad b = .ok (k, id, n)) : ∃ c, readKiln (fieldsOf b) = .ok (k, c) := by
  unfold readLoad at h
  cases hk : readKiln (fieldsOf b) with
  | error i => rw [hk] at h; cases h
  | ok x =>
    obtain ⟨j, c⟩ := x
    simp only [hk, ok_bind] at h
    cases hi : readNat 2 1 65535 c with
    | error i => rw [hi] at h; cases h
    | ok y =>
      simp only [hi, ok_bind] at h
      cases hn : readNat 1 1 16 y.2 with
      | error i => rw [hn] at h; cases h
      | ok z => rw [hn] at h; cases h; exact ⟨c, rfl⟩

/-- LOAD behind its fields and the claim of its kiln. -/
theorem loadAct_eq (hb : readLoad r.body = .ok (k, id, n)) (ho : Owns s p (.kiln k)) :
    loadAct p r s = (do
      let _ ← require (s.kiln k).link.isNone .badState
      let c ← orRefuse (s.charge id) .noSuch
      let _ ← require (c.state == .staged) .badState
      let x ← orRefuse (s.schedule n) .noSuch
      let _ ← require (samplesSuit x.steps c.samples) .badState
      return (s.loadKiln k c x, [.num 1 (kilnNumber k), .num 2 c.id, .num 1 n, .num 2 x.finalTarget])) := by
  obtain ⟨cursor, hk⟩ := readLoad_kiln hb
  rw [loadAct, hk]
  simp only [fields, ok_bind, claimCheck_owns ho, hb]

theorem samplesSuit_iff (st : Steps) (l : List Sample) :
    samplesSuit st l = true ↔ ∀ m, st = .moisture m → l ≠ [] := by
  cases st <;> simp [samplesSuit]

section
variable (hb : readLoad r.body = .ok (k, id, n)) (ho : Owns s p (.kiln k))
include hb ho

theorem loadAct_occupied (hl : (s.kiln k).link ≠ none) : loadAct p r s = .error .badState := by
  obtain ⟨x, hx⟩ := Option.ne_none_iff_exists'.1 hl
  rw [loadAct_eq hb ho, hx]
  rfl

theorem loadAct_absent (hl : (s.kiln k).link = none) (hc : s.charge id = none) : loadAct p r s = .error .noSuch := by
  rw [loadAct_eq hb ho, hl, hc]
  rfl

variable {c : Charge}

theorem loadAct_unstaged (hl : (s.kiln k).link = none) (hc : s.charge id = some c) (hs : c.state ≠ .staged) :
    loadAct p r s = .error .badState := by
  rw [loadAct_eq hb ho, hl, hc]
  simp [require, orRefuse, hs]

/-- A STAGED charge and an empty kiln leave the schedule and the samples to check. -/
theorem loadAct_staged (hl : (s.kiln k).link = none) (hc : s.charge id = some c) (hs : c.state = .staged) :
    loadAct p r s = (orRefuse (s.schedule n) .noSuch >>= fun x => require (samplesSuit x.steps c.samples) .badState >>=
      fun _ => .ok (s.loadKiln k c x, [.num 1 (kilnNumber k), .num 2 c.id, .num 1 n, .num 2 x.finalTarget])) := by
  rw [loadAct_eq hb ho, hl, hc]
  simp only [require, orRefuse, hs, ok_bind, Option.isNone_none, if_true, beq_self_eq_true]
  rfl

end

end

end Sys2Proof.Machine

open Sys2Proof Sys2Proof.Machine in
/-- Settles O29: the five refusals in the order of the checks, then the tie. -/
theorem loadTiesTheChargeToTheKiln : Obligations.LoadTiesTheChargeToTheKiln := by
  unfold Obligations.LoadTiesTheChargeToTheKiln
  intro p r k id n s hr hb ho
  refine ⟨fun hl => ?occupied, fun hl hc => ?absent, fun c hl hc => ⟨fun hs => ?unstaged, fun hs hn => ?unknown,
    fun x hs hn => ⟨fun suit => ?tied, fun l hm he => ?unsampled⟩⟩⟩
  case occupied => exact exec_take_refused rfl hr (loadAct_occupied hb ho hl)
  case absent => exact exec_take_refused rfl hr (loadAct_absent hb ho hl hc)
  case unstaged => exact exec_take_refused rfl hr (loadAct_unstaged hb ho hl hc hs)
  case unknown => exact exec_take_refused rfl hr ((loadAct_staged hb ho hl hc hs).trans (by rw [hn]; rfl))
  case tied =>
    have act := loadAct_staged hb ho hl hc hs
    rw [hn] at act
    simp only [orRefuse, ok_bind, (samplesSuit_iff x.steps c.samples).2 suit] at act
    have named : c.id = id := keyFind_key hc
    have number : x.number = n := keyFind_key hn
    subst named number
    exact exec_take_done rfl hr act
  case unsampled =>
    have short : samplesSuit x.steps c.samples = false := Bool.eq_false_iff.2 fun h => (samplesSuit_iff _ _).1 h l hm he
    exact exec_take_refused rfl hr ((loadAct_staged hb ho hl hc hs).trans (by rw [hn, orRefuse, ok_bind, short]; rfl))

end

section
/-! SUPPORT. Key-ordered tables as collections: what a put, a change and an erasure leave of them, whatever the order; and
identifiers that no present record holds (R56, R143, R154). -/

namespace Sys2Proof.Machine

section

variable {α β : Type} {key : α → Nat} {l : List α} {a b : α} {k : Nat}

/-- Records of one key are one record. -/
theorem Rising.eq_of_key (h : Rising key l) (ha : a ∈ l) (hb : b ∈ l) (e : key a = key b) : a = b := by
  obtain ⟨i, hi, rfl⟩ := List.getElem_of_mem ha
  obtain ⟨j, hj, rfl⟩ := List.getElem_of_mem hb
  have order := List.pairwise_iff_getElem.1 h
  rcases Nat.lt_trichotomy i j with lt | rfl | lt
  · exact absurd e (Nat.ne_of_lt (order i j hi hj lt))
  · rfl
  · exact absurd e (Nat.ne_of_gt (order j i hj hi lt))

theorem keyErase_absent (h : ∀ x ∈ l, key x ≠ k) : keyErase key k l = l :=
  List.filter_eq_self.2 fun x hx => by simpa using h x hx

theorem mem_keyErase : a ∈ keyErase key k l ↔ a ∈ l ∧ key a ≠ k := by simp [keyErase]

/-- An ordered table is a record of it and what its erasure leaves. -/
theorem Rising.perm_keyErase : ∀ {l : List α}, Rising key l → a ∈ l → l.Perm (a :: keyErase key (key a) l)
  | b :: l, h, ha => by
    obtain ⟨hb, hl⟩ := List.pairwise_cons.1 h
    rcases List.mem_cons.1 ha with rfl | ha
    · have rest : keyErase key (key a) (a :: l) = l := by
        rw [keyErase, List.filter_cons_of_neg (by simp)]
        exact keyErase_absent fun x hx => Nat.ne_of_gt (hb x hx)
      rw [rest]
    · have rest : keyErase key (key a) (b :: l) = b :: keyErase key (key a) l :=
        List.filter_cons_of_pos (by simpa using Nat.ne_of_lt (hb a ha))
      rw [rest]
      exact ((Rising.perm_keyErase hl ha).cons b).trans (.swap ..)

/-- What is put stands beside the records of other keys. -/
theorem Rising.keyPut_perm (a : α) : ∀ {l : List α}, Rising key l → (keyPut key a l).Perm (a :: keyErase key (key a) l)
  | [], _ => .refl _
  | b :: l, h => by
    obtain ⟨hb, hl⟩ := List.pairwise_cons.1 h
    have above (hle : key a ≤ key b) : keyErase key (key a) l = l :=
      keyErase_absent fun x hx => Nat.ne_of_gt (Nat.lt_of_le_of_lt hle (hb x hx))
    unfold keyPut
    split
    · have rest : keyErase key (key a) (b :: l) = b :: keyErase key (key a) l :=
        List.filter_cons_of_pos (by simp; omega)
      rw [rest]
      exact ((Rising.keyPut_perm a hl).cons b).trans (.swap ..)
    · split
      · have rest : keyErase key (key a) (b :: l) = keyErase key (key a) l := List.filter_cons_of_neg (by simp; omega)
        rw [rest, above (by omega)]
      · have rest : keyErase key (key a) (b :: l) = b :: keyErase key (key a) l :=
          List.filter_cons_of_pos (by simp; omega)
        rw [rest, above (by omega)]

/-- A record put under a key that no record has joins the table. -/
theorem Rising.keyPut_perm_absent (h : Rising key l) (hk : ∀ x ∈ l, key x ≠ key a) : (keyPut key a l).Perm (a :: l) := by
  have perm := h.keyPut_perm a
  rwa [keyErase_absent hk] at perm

/-- A change at the key of a record changes that record alone. -/
theorem Rising.keyModify_perm (h : Rising key l) (f : α → α) (ha : a ∈ l) :
    (keyModify key (key a) f l).Perm (f a :: keyErase key (key a) l) := by
  have rest : (keyErase key (key a) l).map (fun x => if key x = key a then f x else x) = keyErase key (key a) l := by
    refine (List.map_congr_left fun x hx => ?_).trans (List.map_id _)
    exact if_neg (mem_keyErase.1 hx).2
  have perm := (h.perm_keyErase ha).map fun x => if key x = key a then f x else x
  rwa [List.map_cons, if_pos rfl, rest] at perm

/-- What is found under a key is the record of that key. -/
theorem Rising.keyFind_eq (h : Rising key l) (hf : keyFind key k l = some a) (hb : b ∈ l) (hk : key b = k) : b = a :=
  h.eq_of_key hb (keyFind_mem hf) (hk.trans (keyFind_key hf).symm)

theorem mem_keyModify {f : α → α} (h : b ∈ keyModify key k f l) : (b ∈ l ∧ key b ≠ k) ∨ ∃ x ∈ l, key x = k ∧ b = f x := by
  obtain ⟨x, hx, rfl⟩ := List.mem_map.1 h
  by_cases hk : key x = k
  · exact .inr ⟨x, hx, hk, if_pos hk⟩
  · rw [if_neg hk]
    exact .inl ⟨hx, hk⟩

/-- A change that a view of the records does not see. -/
theorem keyModify_map {v : α → β} {f : α → α} (h : ∀ x ∈ l, key x = k → v (f x) = v x) :
    (keyModify key k f l).map v = l.map v := by
  rw [keyModify, List.map_map]
  refine List.map_congr_left fun x hx => ?_
  by_cases hk : key x = k
  · simp [hk, h x hx hk]
  · simp [hk]

/-- A record behind one with the same view. -/
theorem exists_mem_of_map_eq {v : α → β} {m : List α} (h : m.map v = l.map v) (ha : a ∈ m) : ∃ b ∈ l, v b = v a := by
  have mem : v a ∈ l.map v := h ▸ List.mem_map_of_mem ha
  simpa using mem

end

/-! ## Free identifiers -/

theorem succ_mod_eq {m : Nat} (hm : 0 < m) (x : Nat) : wrapNext m (x % m + 1) = (x + 1) % m + 1 := by
  have small := Nat.mod_lt x hm
  have next : (x + 1) % m = (x % m + 1) % m := by rw [Nat.mod_add_mod]
  rw [wrapNext, next]
  split
  · rename_i inside
    rw [Nat.mod_eq_of_lt inside]
  · rw [show x % m + 1 = m by omega, Nat.mod_self]

/-- The numbers that follow `last` go round in 1 to `m`. -/
theorem wrapNext_iterate {m : Nat} (hm : 0 < m) (last : Nat) :
    ∀ i, (wrapNext m)^[i + 1] last = (wrapNext m last - 1 + i) % m + 1
  | 0 => by
    have range := wrapNext_range (last := last) hm
    rw [Nat.add_zero, Nat.mod_eq_of_lt (by omega)]
    simp only [Function.iterate_one]
    omega
  | i + 1 => by
    rw [Function.iterate_succ_apply', wrapNext_iterate hm last i, succ_mod_eq hm, Nat.add_assoc]

/-- A search that ends on a number in use has passed over numbers in use alone. -/
theorem firstFree_mem {m : Nat} {used : List Nat} : ∀ {fuel last : Nat}, firstFree m used fuel last ∈ used →
    ∀ i ≤ fuel, (wrapNext m)^[i + 1] last ∈ used
  | 0, last, h, i, hi => by
    rw [Nat.le_zero.1 hi]
    exact h
  | fuel + 1, last, h, i, hi => by
    unfold firstFree at h
    split at h
    · rename_i taken
      cases i with
      | zero => simpa using taken
      | succ i =>
        rw [Function.iterate_succ_apply]
        exact firstFree_mem h i (by omega)
    · rename_i free
      exact absurd h (by simpa using free)

/-- While fewer than `m` numbers are in use, the new identifier is not one of them. -/
theorem newId_not_mem {m : Nat} {used : List Nat} (h : used.length < m) (last : Nat) : newId m used last ∉ used := by
  intro taken
  have passed := firstFree_mem taken
  have distinct : ((List.range (used.length + 1)).map fun i => (wrapNext m)^[i + 1] last).Nodup := by
    refine List.Nodup.map_on (fun i hi j hj e => ?_) List.nodup_range
    rw [List.mem_range] at hi hj
    rw [wrapNext_iterate (by omega), wrapNext_iterate (by omega), Nat.add_right_cancel_iff] at e
    have same : i % m = j % m := Nat.ModEq.add_left_cancel' _ e
    rwa [Nat.mod_eq_of_lt (by omega), Nat.mod_eq_of_lt (by omega)] at same
  have within : ((List.range (used.length + 1)).map fun i => (wrapNext m)^[i + 1] last) ⊆ used := fun x hx => by
    obtain ⟨i, hi, rfl⟩ := List.mem_map.1 hx
    exact passed i (Nat.le_of_lt_succ (List.mem_range.1 hi))
  have room := (distinct.subperm within).length_le
  simp at room

end Sys2Proof.Machine

end

section
/-! SUPPORT. What every command keeps: an invariant that does not look at the port units, under takes, events and the commands
that reset every port. -/

namespace Sys2Proof.Machine

section

variable {Inv : State → Prop} {s t : State} {c : Instr}

/-- An invariant that no change of the port units alone breaks. -/
def BlockInv (Inv : State → Prop) : Prop := ∀ s u, Inv s → Inv (s.withPorts u)

theorem BlockInv.raiseAll (hI : BlockInv Inv) (h : Inv s) (c : Cause) : Inv (s.raiseAll c) := hI s _ h

theorem BlockInv.raiseIf (hI : BlockInv Inv) (h : Inv s) (b : Bool) (c : Cause) : Inv (s.raiseIf b c) := by
  rw [State.raiseIf_eq]
  exact hI s _ h

/-- Every DONE of `act`, taken while the part runs, keeps the invariant. -/
def Act.Keeps (Inv : State → Prop) (act : Act) : Prop :=
  ∀ p r s, s.retention.phase = .running → Inv s → Gives (fun x => Inv x.1) (act p r s)

theorem event_keeps {f : State → State} (hs : Inv s) (hf : s.retention.phase = .running → Inv (f s))
    (h : event f s = .next t) : Inv t := by
  cases h
  split
  · exact hf ‹_›
  · exact hs

theorem take_keeps {x : Port × Byte} (hI : BlockInv Inv) (ht : takenBy c = some x) (ha : Act.Keeps Inv (actOf c))
    (hs : Inv s) (h : exec c s = .next t) : Inv t := by
  obtain ⟨p, code⟩ := x
  rw [exec_take ht] at h
  refine event_keeps hs (fun running => ?_) h
  cases hr : s.offered p code with
  | none => exact hs
  | some r =>
    dsimp only
    cases hx : actOf c p r s with
    | error e =>
      rw [answered_refused hx]
      exact hI s _ hs
    | ok y =>
      rw [answered_done hx]
      exact hI _ _ (ha p r s running hs y hx)

theorem kilnCommand_keeps {rule : KilnNo → Charge → Schedule → State → Option State}
    (h : ∀ k c x s t, Inv s → s.kilnCharge k = some c → s.scheduleOf c = some x → rule k c x s = some t → Inv t) :
    Act.Keeps Inv (kilnCommand rule) := fun _ _ s _ hs =>
  .bind fun k => .bind fun _ => .bind' fun c hc => .bind' fun x hx => .bind' fun t ht =>
    .pure (h k c x s t hs (orRefuse_ok hc) (orRefuse_ok hx) (orRefuse_ok ht))

end

/-! ## Commands that reset every port -/

/-- What is seen of a pack by the charges it lists. -/
def Pack.listing (q : Pack) : Nat × List Contributor := (q.id, q.contributors)

/-- The pack records as the charges see them. -/
def State.packLists (s : State) : List (Nat × List Contributor) := s.packs.packs.map Pack.listing

/-- What a RESTART, a warm start and a fall of the supplies leave of the tables: the charges and kilns either stand or are
restarted, no record lists another charge, and where the part then runs the charges are restarted and no run is left. -/
structure Interrupted (s t : State) : Prop where
  charges : (t.charges = s.charges ∧ t.kilns = s.kilns) ∨ ∃ why, RestartedCharges s t why
  library : t.library = s.library
  lots : t.lots = s.lots
  packs : t.packLists = s.packLists
  running : t.retention.phase = .running → t.tracker.run = none ∧ ∃ why, RestartedCharges s t why

section

variable {s t : State}

theorem modifyPack_packLists {f : Pack → Pack} (hf : ∀ q, (f q).listing = q.listing) (s : State) (id : Nat) :
    (s.modifyPack id f).packLists = s.packLists :=
  keyModify_map fun q _ _ => hf q

/-- The label engine leaves the pack records alone. -/
theorem appendJob_packLists (s : State) (lbsy : Bool) (j : Job) : (s.appendJob lbsy j).packLists = s.packLists :=
  congrArg (fun x : PackBuilder => x.packs.map Pack.listing)
    (((Within.refl s).appendJob (P := fun b => match b with | .label => true | _ => false) rfl lbsy j).blocks .packs rfl)

theorem queuePack_packLists (s : State) (lbsy : Bool) (id : Nat) : (s.queuePack lbsy id).packLists = s.packLists :=
  (appendJob_packLists _ _ _).trans
    (modifyPack_packLists (f := fun q => { q with state := .labelQueued }) (fun _ => rfl) s id)

theorem fillQueue_packLists (s : State) (lbsy : Bool) : (s.fillQueue lbsy).packLists = s.packLists := by
  have queued : ∀ (l : List Nat) (s : State),
      (l.foldl (fun t id => t.queuePack lbsy id) s).packLists = s.packLists := by
    intro l
    induction l with
    | nil => exact fun s => rfl
    | cons id l ih => exact fun s => (ih _).trans (queuePack_packLists s lbsy id)
  exact queued _ s

theorem unqueued_listing (q : Pack) : q.unqueued.listing = q.listing := by
  unfold Pack.unqueued
  split <;> rfl

theorem restartedBlocks_packLists {why : HoldReason} {eye lbsy : Bool} (h : RestartedBlocks s t why eye lbsy) :
    t.packLists = s.packLists := by
  obtain ⟨u, hu, packs, _⟩ := h.label
  rw [State.packLists, packs, hu]
  refine (fillQueue_packLists _ lbsy).trans ?_
  exact (List.map_map ..).trans (List.map_congr_left fun q _ => unqueued_listing q)

/-- Every block rebuilt, from any port units, claims and retention domain. -/
theorem restartedBlocks_interrupted {why : HoldReason} {eye lbsy : Bool} (h : RestartedBlocks s t why eye lbsy) :
    Interrupted s t where
  charges := .inr ⟨why, h.charges⟩
  library := h.rest.1
  lots := h.rest.2.1
  packs := restartedBlocks_packLists h
  running := fun _ => ⟨by rw [h.tracker], why, h.charges⟩

theorem quiet_interrupted (hc : t.charges = s.charges) (hk : t.kilns = s.kilns) (hl : t.library = s.library)
    (ho : t.lots = s.lots) (hp : t.packs = s.packs) (hr : t.retention.phase ≠ .running) : Interrupted s t :=
  ⟨.inl ⟨hc, hk⟩, hl, ho, by rw [State.packLists, hp]; rfl, fun h => absurd h hr⟩

theorem warmCut_interrupted (h : s.retention.phase = .starting) (charges packs : Bool) (n : Nat) :
    Interrupted s (s.warmCut charges packs n) := by
  obtain ⟨_, blocks⟩ := warmCut_frame s charges packs n
  refine ⟨?_, blocks .library rfl, blocks .lots rfl, ?_, fun running => ?_⟩
  · cases charges with
    | false => exact .inl ⟨(warmCut_idle s packs n).1, (warmCut_idle s packs n).2.1⟩
    | true => exact .inr ⟨_, (warmCut_charges s packs n).1⟩
  · rw [State.packLists, warmCut_packs]
    split
    · exact (List.map_map ..).trans (List.map_congr_left fun q _ => unqueued_listing q)
    · rfl
  · have same : (s.warmCut charges packs n).retention = s.retention := blocks .retention rfl
    rw [same, h] at running
    cases running

/-- A command that resets every port changes nothing, makes a cold start, or interrupts the part. -/
theorem exec_resets {c : Instr} (hr : resetsPorts c = true) (h : exec c s = .next t) :
    t = s ∨ (∃ eye, t = s.coldStarted eye) ∨ Interrupted s t := by
  cases c with
  | restart p eye lbsy =>
    rcases exec_restart_cases h with rfl | ⟨r, rfl⟩
    · exact .inl rfl
    · rw [restarted_eq, restartPorts_started]
      exact .inr (.inr (restartedBlocks_interrupted restartBlocks_blocks))
  | powerOnReset => cases h; exact .inr (.inr (quiet_interrupted rfl rfl rfl rfl rfl nofun))
  | coldStart eye cut =>
    rcases exec_coldStart_eq eye cut s with e | e <;> rw [e] at h <;> cases h
    · exact .inl rfl
    · exact .inr (.inl ⟨eye, rfl⟩)
  | warmStart eye lbsy e =>
    by_cases hs : s.retention.phase = .starting ∧ s.retention.marker = true
    · cases e with
      | completes =>
        rw [exec_warmStart_completes hs, warmStarted_started] at h
        cases h
        exact .inr (.inr (restartedBlocks_interrupted restartBlocks_blocks))
      | cut charges packs n =>
        rw [exec_warmStart_cut hs] at h
        cases h
        exact .inr (.inr (warmCut_interrupted hs.1 charges packs n))
    · rw [exec_warmStart_idle hs] at h
      cases h
      exact .inl rfl
  | mainPowerFail low =>
    by_cases hp : s.retention.phase = .off
    · rw [exec_mainPowerFail_off hp] at h
      cases h
      exact .inl rfl
    · rw [exec_mainPowerFail_on hp] at h
      cases h
      exact .inr (.inr (quiet_interrupted rfl rfl rfl rfl rfl nofun))
  | _ => cases hr

end

end Sys2Proof.Machine

end

section
/-! SUPPORT. Setpoints and targets (R74): what each change of a kiln record keeps of them. -/

namespace Sys2Proof.Machine

/-! ## One kiln record -/

/-- wet setpoint ≤ dry setpoint ≤ 1100, and the target lies in range (R74). -/
def Kiln.Ok (kl : Kiln) : Prop := kl.wet ≤ kl.dry ∧ kl.dry ≤ 1100 ∧ ∀ g, kl.target = some g → g.dry ≤ 1100

section

variable {kl : Kiln} {x : Schedule}

/-- A record whose setpoints and target are as they were. -/
theorem Kiln.Ok.of_eq {m : Kiln} (h : kl.Ok) (hd : m.dry = kl.dry) (hw : m.wet = kl.wet) (ht : m.target = kl.target) :
    m.Ok := by
  unfold Kiln.Ok
  rw [hd, hw, ht]
  exact h

theorem Kiln.Ok.counted (h : kl.Ok) (cls : MinuteClass) (drying : Bool) : (kl.counted cls drying).Ok := by
  cases cls <;> exact h

theorem moveToward_le {s g m : Nat} (hs : s ≤ 1100) (hg : g ≤ 1100) : moveToward s g m ≤ 1100 := by
  unfold moveToward
  split <;> omega

/-- The ramp stays between the setpoint and the target (R108). -/
theorem rampMinute_le {s g a r : Nat} (hs : s ≤ 1100) (hg : g ≤ 1100) : (rampMinute s g a r).1 ≤ 1100 := by
  unfold rampMinute
  split
  · exact hs
  · split
    · exact hg
    · exact moveToward_le hs hg

theorem wetOf_le (dry depression : Nat) : wetOf dry depression ≤ dry := Nat.sub_le ..

theorem Kiln.Ok.ramped (h : kl.Ok) (ramp : Nat) : (kl.ramped ramp).Ok := by
  unfold Kiln.ramped
  split
  · rename_i g hg
    obtain ⟨_, high, target⟩ := h
    exact ⟨wetOf_le .., rampMinute_le high (target g hg), fun g' h' => target g' h'⟩
  · exact h

theorem Kiln.Ok.retarget (h : kl.Ok) {g : Option KilnTarget} (hg : ∀ y, g = some y → y.dry ≤ 1100) :
    (kl.retarget g).Ok := by
  obtain ⟨low, high, _⟩ := h
  cases g with
  | none => exact ⟨low, high, hg⟩
  | some y => exact ⟨wetOf_le .., high, hg⟩

/-- A change to a step or phase of a schedule whose targets are in range. -/
theorem Kiln.Ok.change (h : kl.Ok) (hx : TargetsOk x) (ch : Change) : (ch.kiln x kl).Ok := by
  obtain ⟨steps, phases⟩ := hx
  cases ch with
  | step n => exact (h.retarget (steps n)).of_eq rfl rfl rfl
  | phase ph => exact (h.retarget (phases ph)).of_eq rfl rfl rfl
  | dried => exact ⟨le_rfl, Nat.zero_le _, nofun⟩

theorem cleared_ok (kl : Kiln) (link : Option Nat) : (kl.cleared link).Ok := ⟨le_rfl, Nat.zero_le _, nofun⟩

theorem clampSetpoint_le (v : Int) : clampSetpoint v ≤ 1100 := by
  unfold clampSetpoint
  omega

theorem startDry_le {d : Nat} (hd : d ≤ 1100) : kl.startDry d ≤ 1100 := by
  unfold Kiln.startDry
  split
  · exact clampSetpoint_le _
  · exact hd

theorem started_ok (kl : Kiln) (hx : TargetsOk x) : (kl.started x).Ok := by
  have first : ((x.steps.target 1).getD ⟨0, 0⟩).dry ≤ 1100 := by
    cases hg : x.steps.target 1 with
    | none => exact Nat.zero_le _
    | some g => exact hx.1 1 g hg
  refine ⟨wetOf_le .., startDry_le first, fun g hg => ?_⟩
  cases hg
  exact first

end

/-! ## Targets of a schedule that was read -/

theorem fields_gives {α : Type} {Q : α → Prop} {x : Except Nat α} (h : Gives Q x) : Gives Q (fields x) := by
  cases x with
  | error i => exact .error _
  | ok a => exact .pure (h a rfl)

theorem readPair_gives (c : Cursor) : Gives (fun y => y.1.1 ≤ 1100) (readPair true c) := by
  unfold readPair
  dsimp only
  refine .ite (.error _) ?_
  split
  · exact .error _
  · rename_i range
    refine .ite (.error _) (.pure ?_)
    simp at range
    exact range.2

theorem readNat_gives (w lo hi : Nat) (c : Cursor) : Gives (fun y => lo ≤ y.1 ∧ y.1 ≤ hi) (readNat w lo hi c) := by
  unfold readNat readNatIf
  split
  · exact .error _
  · split
    · rename_i range
      exact .pure (by simpa using range)
    · exact .error _

theorem readMany_gives {α : Type} {Q : α → Prop} {item : Reader α} (h : ∀ c, Gives (fun y => Q y.1) (item c)) :
    ∀ n c, Gives (fun y => ∀ z ∈ y.1, Q z) (readMany item n c)
  | 0, _ => .pure nofun
  | n + 1, c => by
    unfold readMany
    split
    · exact .error _
    · rename_i a c' ha
      split
      · exact .error _
      · rename_i l c'' hl
        exact .pure (List.forall_mem_cons.2 ⟨h c _ ha, readMany_gives h n c' _ hl⟩)

theorem readMoistureSteps_gives : ∀ n prev c, Gives (fun y => ∀ z ∈ y.1, z.dry ≤ 1100) (readMoistureSteps n prev c)
  | 0, _, _ => .pure nofun
  | n + 1, _, c =>
    .bind' fun x hx => .bind fun y => .bind fun _ => .bind fun _ => .bind' fun z hz =>
      .pure (List.forall_mem_cons.2 ⟨readPair_gives c x hx, readMoistureSteps_gives n y.1 _ z hz⟩)

theorem readTimeStep_gives (c : Cursor) : Gives (fun y => y.1.dry ≤ 1100) (readTimeStep c) :=
  .bind' fun x hx => .bind fun _ => .pure (readPair_gives c x hx)

theorem readSteps_gives (kind count : Nat) (c : Cursor) :
    Gives (fun y => ∀ n g, y.1.target n = some g → g.dry ≤ 1100) (readSteps kind count c) := by
  unfold readSteps
  refine .ite (.bind' fun x hx => .pure fun n g hg => ?_) (.bind' fun x hx => .pure fun n g hg => ?_)
  all_goals
    obtain ⟨z, hz, rfl⟩ := Option.map_eq_some_iff.1 hg
  · exact readMoistureSteps_gives _ _ _ x hx z (List.mem_of_getElem? hz)
  · exact readMany_gives (Q := fun z : TimeStep => z.dry ≤ 1100) readTimeStep_gives _ _ x hx z (List.mem_of_getElem? hz)

theorem readEqualize_gives (c : Cursor) : Gives (fun y => ∀ e, y.1 = some e → e.dry ≤ 1100) (readEqualize c) :=
  .bind fun b => .bind' fun x hx => .bind fun _ => .bind fun _ => .pure fun e he => by
    split at he <;> cases he
    rename_i enabled
    rw [enabled] at hx
    exact readPair_gives _ x hx

theorem readConditioning_gives (c : Cursor) : Gives (fun y => ∀ e, y.1 = some e → e.dry ≤ 1100) (readConditioning c) :=
  .bind fun b => .bind' fun x hx => .bind fun _ => .pure fun e he => by
    split at he <;> cases he
    rename_i enabled
    rw [enabled] at hx
    exact readPair_gives _ x hx

/-- Every target of a schedule that PUT SCHEDULE reads lies in range, and so does its number (R41, R42). -/
theorem readSchedule_gives (b : List Byte) :
    Gives (fun x => TargetsOk x ∧ 1 ≤ x.number ∧ x.number ≤ 16) (readSchedule b) :=
  .bind' fun number hnumber => .bind fun _ => .bind fun _ => .bind fun _ => .bind' fun equalize heq => .bind' fun cond hcond =>
    .bind' fun coolEnd hcool => .bind fun _ => .bind fun _ => .bind' fun steps hsteps =>
      have targets := readSteps_gives _ _ _ steps hsteps
      .pure ⟨⟨targets, fun ph g hg => by
        cases ph with
        | drying => exact targets 1 g hg
        | equalizing =>
          obtain ⟨e, he, rfl⟩ := Option.map_eq_some_iff.1 hg
          exact readEqualize_gives _ equalize heq e he
        | conditioning =>
          obtain ⟨e, he, rfl⟩ := Option.map_eq_some_iff.1 hg
          exact readConditioning_gives _ cond hcond e he
        | cooling =>
          cases hg
          exact Nat.le_trans (readNat_gives _ _ _ _ coolEnd hcool).2 (by decide)⟩,
        readNat_gives _ _ _ _ number hnumber⟩

/-! ## The whole part -/

section

variable {s t : State} {k : KilnNo} {x : Schedule}

theorem SetpointsOk.kiln (h : SetpointsOk s) (k : KilnNo) : (s.kiln k).Ok :=
  ⟨(h.setpoints k).1, (h.setpoints k).2, h.target k⟩

/-- Only the kiln records and the schedules are looked at. -/
theorem SetpointsOk.of_kilns (hk : ∀ k, (t.kiln k).Ok) (hx : ∀ x ∈ t.library.schedules, TargetsOk x) : SetpointsOk t :=
  ⟨fun k => ⟨(hk k).1, (hk k).2.1⟩, fun k => (hk k).2.2, hx⟩

theorem SetpointsOk.of_eq (h : SetpointsOk s) (hk : t.kilns = s.kilns) (hx : t.library.schedules = s.library.schedules) :
    SetpointsOk t :=
  .of_kilns (fun k => by rw [State.kiln, hk]; exact h.kiln k) (hx ▸ h.schedules)

theorem setpointsOk_blockInv : BlockInv SetpointsOk := fun _ _ h => h.of_eq rfl rfl

theorem SetpointsOk.setKiln (h : SetpointsOk s) {y : Kiln} (hy : y.Ok) : SetpointsOk (s.setKiln k y) := by
  refine .of_kilns (fun j => ?_) h.schedules
  by_cases hj : j = k
  · rw [hj, State.setKiln_kiln_same]
    exact hy
  · rw [State.setKiln_kiln_ne _ _ hj]
    exact h.kiln j

theorem SetpointsOk.writeTrace (h : SetpointsOk s) (k : KilnNo) (id : Nat) (kind : TraceKind) :
    SetpointsOk (s.writeTrace k id kind) := by
  rw [State.writeTrace_eq]
  exact h.of_eq rfl rfl

theorem SetpointsOk.raiseAll (h : SetpointsOk s) (c : Cause) : SetpointsOk (s.raiseAll c) := h.of_eq rfl rfl

theorem SetpointsOk.modifyCharge (h : SetpointsOk s) (id : Nat) (f : Charge → Charge) : SetpointsOk (s.modifyCharge id f) :=
  h.of_eq rfl rfl

theorem SetpointsOk.setInUse (h : SetpointsOk s) (n count : Nat) : SetpointsOk (s.setInUse n count) := h.of_eq rfl rfl

theorem SetpointsOk.kilnChange (h : SetpointsOk s) {y : Kiln} (hy : y.Ok) (id : Nat) (f : Charge → Charge)
    (kind : TraceKind) : SetpointsOk (s.kilnChange k id y f kind) :=
  (((h.setKiln hy).modifyCharge id f).raiseAll _).writeTrace k id kind

theorem SetpointsOk.applyChange (h : SetpointsOk s) (hx : TargetsOk x) (k : KilnNo) (c : Charge) (ch : Change)
    (more : Charge → Charge) (kind : TraceKind) : SetpointsOk (s.applyChange k c x ch more kind) := by
  have returned : SetpointsOk (s.returnSchedule c ch) := by
    unfold State.returnSchedule
    split
    · exact h.setInUse _ _
    · exact h
  exact returned.kilnChange ((h.kiln k).change hx ch) _ _ kind

/-! ## A minute -/

theorem SetpointsOk.minuteAge (h : SetpointsOk s) (id : Nat) : SetpointsOk (minuteAge k id s) := by
  unfold Machine.minuteAge
  split
  · refine ((h.setKiln ?_).raiseAll _).writeTrace k id _
    exact (h.kiln k).of_eq rfl rfl rfl
  · exact h.setKiln ((h.kiln k).of_eq rfl rfl rfl)

theorem SetpointsOk.minuteCount (h : SetpointsOk s) (st : ChargeState) : SetpointsOk (minuteCount k st s) :=
  h.setKiln ((h.kiln k).counted _ _)

theorem SetpointsOk.minuteDeviation (h : SetpointsOk s) (id : Nat) (st : ChargeState) :
    SetpointsOk (minuteDeviation k id st s) := by
  unfold Machine.minuteDeviation State.setDeviation
  split
  · split
    · exact h
    · refine ((h.setKiln ?_).raiseAll _).writeTrace k id _
      exact (h.kiln k).of_eq rfl rfl rfl
  · exact h

theorem SetpointsOk.minuteRamp (h : SetpointsOk s) (st : ChargeState) (x : Schedule) : SetpointsOk (minuteRamp k st x s) := by
  unfold Machine.minuteRamp
  split
  · exact h.setKiln ((h.kiln k).ramped _)
  · exact h

theorem SetpointsOk.minuteHeat (h : SetpointsOk s) (c : Charge) : SetpointsOk (minuteHeat k c s) := by
  unfold Machine.minuteHeat
  split
  · exact h
  · split
    · split
      · exact ((h.modifyCharge _ _).raiseAll _).writeTrace k _ _
      · exact h.modifyCharge _ _
    · exact h.modifyCharge _ _

theorem SetpointsOk.minuteOvertime (h : SetpointsOk s) (st : ChargeState) (x : Schedule) :
    SetpointsOk (minuteOvertime k st x s) := by
  unfold Machine.minuteOvertime
  split
  · refine (h.setKiln ?_).raiseAll _
    exact (h.kiln k).of_eq rfl rfl rfl
  · exact h

theorem SetpointsOk.minuteTrigger (h : SetpointsOk s) (c : Charge) (hx : TargetsOk x) :
    SetpointsOk (minuteTrigger k c x s) := by
  unfold Machine.minuteTrigger
  split
  · split
    · exact h.applyChange hx k c _ _ _
    · exact h
  · exact h

theorem SetpointsOk.minuteChart (h : SetpointsOk s) (id : Nat) : SetpointsOk (minuteChart k id s) := by
  unfold Machine.minuteChart
  split
  · split
    · refine (h.setKiln ?_).writeTrace k id _
      exact (h.kiln k).of_eq rfl rfl rfl
    · exact h.setKiln ((h.kiln k).of_eq rfl rfl rfl)
  · exact h

/-- The schedule of a charge is one of the library's. -/
theorem scheduleOf_mem {c : Charge} (h : s.scheduleOf c = some x) : x ∈ s.library.schedules := by
  obtain ⟨n, _, hx⟩ := Option.bind_eq_some_iff.1 h
  exact keyFind_mem hx

theorem SetpointsOk.kilnMinute (h : SetpointsOk s) (k : KilnNo) : SetpointsOk (s.kilnMinute k) := by
  unfold State.kilnMinute
  split
  · split
    · rename_i x hx
      split
      · exact (((((((h.minuteAge _).minuteCount _).minuteDeviation _ _).minuteRamp _ x).minuteHeat _).minuteOvertime
          _ x).minuteTrigger _ (h.schedules x (scheduleOf_mem hx))).minuteChart _
      · exact h
    · exact h
  · exact h

/-! ## The acts -/

theorem putScheduleAct_setpointsOk : putScheduleAct.Keeps SetpointsOk := fun _ _ _ _ h =>
  .bind fun _ => .bind' fun x hx => .bind fun _ => .pure ⟨h.setpoints, h.target, fun y hy => by
    rcases mem_keyPut hy with rfl | hy
    · exact (fields_gives (readSchedule_gives _) y hx).1
    · exact h.schedules y hy⟩

theorem deleteScheduleAct_setpointsOk : deleteScheduleAct.Keeps SetpointsOk := fun _ _ _ _ h =>
  .bind fun _ => .bind fun _ => .bind fun _ => .bind fun _ => .pure
    ⟨h.setpoints, h.target, fun y hy => h.schedules y (mem_keyErase.1 hy).1⟩

/-- The rest of the library: no act on it changes a schedule. -/
theorem putParameterAct_schedules (p : Port) (r : Request) (s : State) :
    Gives (fun x => x.1.library.schedules = s.library.schedules ∧ x.1.library.inUse = s.library.inUse)
      (putParameterAct p r s) := by
  refine .bind fun _ => .bind fun x => ?_
  dsimp only
  split <;> exact .pure ⟨rfl, rfl⟩

theorem loadAct_setpointsOk : loadAct.Keeps SetpointsOk := fun _ _ _ _ h =>
  .bind fun _ => .bind fun _ => .bind fun _ => .bind fun _ => .bind fun _ => .bind fun _ => .bind fun _ => .bind fun _ =>
    .pure ((((h.modifyCharge _ _).setKiln (cleared_ok _ _)).setInUse _ _).writeTrace _ _ _)

theorem unloadAct_setpointsOk : unloadAct.Keeps SetpointsOk := fun _ _ _ _ h => by
  refine .bind fun _ => .bind fun _ => .bind fun _ => .bind fun _ => .bind fun _ => .bind fun c => ?_
  split
  · refine .pure ?_
    unfold State.unloadLoaded
    dsimp only
    split
    · exact (((h.modifyCharge _ _).setKiln (cleared_ok _ _)).setInUse _ _).writeTrace _ _ _
    · exact ((h.modifyCharge _ _).setKiln (cleared_ok _ _)).writeTrace _ _ _
  · exact .pure (((h.modifyCharge _ _).setKiln (cleared_ok _ _)).writeTrace _ _ _)
  · exact .error _

theorem kilnReportAct_setpointsOk : kilnReportAct.Keeps SetpointsOk := fun _ _ s _ h => by
  refine .bind fun x => ?_
  dsimp only
  split
  · refine .pure ?_
    have stored : SetpointsOk (s.setKiln x.1 ((s.kiln x.1).reported x.2)) :=
      h.setKiln ((h.kiln _).of_eq rfl rfl rfl)
    unfold State.storeReport
    dsimp only
    split
    · exact (stored.raiseAll _).writeTrace _ _ _
    · exact stored
  · exact .pure h

theorem startRule_setpointsOk : (kilnCommand startRule).Keeps SetpointsOk :=
  kilnCommand_keeps fun k c x s t h _ hx ht => by
    unfold startRule at ht
    split at ht <;> cases ht
    exact h.kilnChange (started_ok _ (h.schedules x (scheduleOf_mem hx))) _ _ _

theorem holdRule_setpointsOk : (kilnCommand holdRule).Keeps SetpointsOk :=
  kilnCommand_keeps fun k c x s t h _ _ ht => by
    unfold holdRule at ht
    split at ht <;> cases ht
    exact h.kilnChange (h.kiln k) _ _ _

theorem resumeRule_setpointsOk : (kilnCommand resumeRule).Keeps SetpointsOk :=
  kilnCommand_keeps fun k c x s t h _ _ ht => by
    unfold resumeRule at ht
    split at ht <;> cases ht
    exact h.kilnChange (h.kiln k) _ _ _

theorem skipStepRule_setpointsOk : (kilnCommand skipStepRule).Keeps SetpointsOk :=
  kilnCommand_keeps fun k c x s t h _ hx ht => by
    unfold skipStepRule at ht
    split at ht <;> cases ht
    exact h.applyChange (h.schedules x (scheduleOf_mem hx)) k c _ _ _

theorem stopRule_setpointsOk : (kilnCommand stopRule).Keeps SetpointsOk :=
  kilnCommand_keeps fun k c x s t h _ hx ht => by
    unfold stopRule at ht
    split at ht <;> cases ht
    exact h.applyChange (h.schedules x (scheduleOf_mem hx)) k c _ _ _

theorem SetpointsOk.interrupted (h : SetpointsOk s) (hi : Interrupted s t) : SetpointsOk t := by
  rcases hi.charges with ⟨_, kilns⟩ | ⟨why, restarted⟩
  · exact h.of_eq kilns (by rw [hi.library])
  · refine .of_kilns (fun k => ?_) (hi.library ▸ h.schedules)
    obtain ⟨timer, _, kiln⟩ := restarted.kilns k
    rw [kiln]
    exact (h.kiln k).of_eq rfl rfl rfl

theorem exec_setpointsOk {c : Instr} (hs : SetpointsOk s) (h : exec c s = .next t) : SetpointsOk t := by
  have take {x : Port × Byte} (ht : takenBy c = some x) (ha : (actOf c).Keeps SetpointsOk) : SetpointsOk t :=
    take_keeps setpointsOk_blockInv ht ha hs h
  cases hr : resetsPorts c with
  | true =>
    rcases exec_resets hr h with rfl | ⟨eye, rfl⟩ | hi
    · exact hs
    · exact reset_setpointsOk.of_eq rfl rfl
    · exact hs.interrupted hi
  | false =>
    cases c with
    | putSpecies => exact take rfl fun _ _ _ _ h => .bind fun _ => .bind fun _ => .pure (h.of_eq rfl rfl)
    | deleteSpecies =>
      exact take rfl fun _ _ _ _ h => .bind fun _ => .bind fun _ => .bind fun _ => .bind fun _ => .pure (h.of_eq rfl rfl)
    | putSchedule => exact take rfl putScheduleAct_setpointsOk
    | deleteSchedule => exact take rfl deleteScheduleAct_setpointsOk
    | putGradeText =>
      refine take rfl fun _ _ _ _ h => .bind fun _ => .bind fun _ => .pure ?_
      dsimp only
      split
      · exact h
      · exact h.of_eq rfl rfl
    | putLengthBands => exact take rfl fun _ _ _ _ h => .bind fun _ => .bind fun _ => .pure (h.of_eq rfl rfl)
    | putParameter =>
      exact take rfl fun p r s _ h y hy => h.of_eq
        ((putParameterAct_within (P := fun b => match b with | .library => true | _ => false) rfl p r s y hy).blocks
          .kilns rfl) (putParameterAct_schedules p r s y hy).1
    | load => exact take rfl loadAct_setpointsOk
    | unload => exact take rfl unloadAct_setpointsOk
    | kilnReport => exact take rfl kilnReportAct_setpointsOk
    | start => exact take rfl startRule_setpointsOk
    | hold => exact take rfl holdRule_setpointsOk
    | resume => exact take rfl resumeRule_setpointsOk
    | skipStep => exact take rfl skipStepRule_setpointsOk
    | stop => exact take rfl stopRule_setpointsOk
    | kilnMinuteExpiry k => exact event_keeps (f := fun s => s.kilnMinute k) hs (fun _ => hs.kilnMinute k) h
    | restart | powerOnReset | coldStart | warmStart | mainPowerFail => cases hr
    | _ => exact hs.of_eq (exec_blocks h .kilns rfl) (congrArg Library.schedules (exec_blocks h .library rfl))

end

end Sys2Proof.Machine

end

section
/-! SUPPORT. Views of the charges, and the takes of the kilns' work that a view does not see. -/

namespace Sys2Proof.Machine

/-! ## Views of the charges -/

/-- The Charge Table through a view of its records. -/
def State.seen {β : Type} (s : State) (v : Charge → β) : List β := s.charges.entries.map v

/-- A view of charges that shows their ids, and no more of the kilns' work than whether a schedule is held in use. -/
structure KilnView {β : Type} (v : Charge → β) : Prop where
  id : ∃ g : β → Nat, ∀ c, g (v c) = c.id
  samples : ∀ (c : Charge) l, v ({ c with samples := l } : Charge).recompute = v c
  flags : ∀ (c : Charge) fl, v { c with flags := fl } = v c
  heat : ∀ (c : Charge) n, v { c with htAccrual := n } = v c
  working : ∀ (c : Charge) st, usesSchedule c.state = true → usesSchedule st = true → v { c with state := st } = v c

/-- The entries of the Charge Table are in key order. -/
abbrev State.Ordered (s : State) : Prop := Rising Charge.id s.charges.entries

section

variable {β : Type} {v : Charge → β} {s t : State} {id : Nat} {c : Charge} {f : Charge → Charge}

theorem seen_of_charges (h : t.charges = s.charges) : t.seen v = s.seen v := by rw [State.seen, h]; rfl

theorem KilnView.ordered (hv : KilnView v) (h : s.Ordered) (hu : t.seen v = s.seen v) : t.Ordered := by
  obtain ⟨g, hg⟩ := hv.id
  have ids (u : State) : u.charges.entries.map Charge.id = (u.seen v).map g := by
    rw [State.seen, List.map_map]
    exact List.map_congr_left fun c _ => (hg c).symm
  have rising : (s.charges.entries.map Charge.id).Pairwise (· < ·) := List.pairwise_map.2 h
  rw [ids, ← hu, ← ids] at rising
  exact List.pairwise_map.1 rising

/-- A present charge has the id it is found under. -/
theorem charge_id (h : s.charge id = some c) : c.id = id := keyFind_key h

theorem charge_mem (h : s.charge id = some c) : c ∈ s.charges.entries := keyFind_mem h

/-- What is found under an id is found under the id of what is found. -/
theorem charge_found (h : s.charge id = some c) : s.charge c.id = some c := by
  rw [charge_id h]
  exact h

theorem State.Ordered.charge_eq (ho : s.Ordered) (hc : s.charge id = some c) {d : Charge} (hd : d ∈ s.charges.entries)
    (hid : d.id = id) : d = c :=
  Rising.keyFind_eq ho hc hd hid

/-- A change of a charge that the view does not see. -/
theorem modifyCharge_seen (hf : ∀ c, v (f c) = v c) (s : State) (id : Nat) : (s.modifyCharge id f).seen v = s.seen v :=
  keyModify_map fun c _ _ => hf c

theorem modifyCharge_seen_found (ho : s.Ordered) (hc : s.charge id = some c) (hf : v (f c) = v c) :
    (s.modifyCharge id f).seen v = s.seen v :=
  keyModify_map fun d hd hid => by rw [ho.charge_eq hc hd hid]; exact hf

theorem raiseIf_seen (s : State) (b : Bool) (x : Cause) : (s.raiseIf b x).seen v = s.seen v := by
  rw [State.raiseIf_eq]; rfl

theorem writeTrace_seen (s : State) (k : KilnNo) (id : Nat) (kind : TraceKind) :
    (s.writeTrace k id kind).seen v = s.seen v :=
  seen_of_charges (State.writeTrace_charges s k id kind)

theorem kilnChange_seen (ho : s.Ordered) (hc : s.charge id = some c) (hf : v (f c) = v c) (k : KilnNo) (kl : Kiln)
    (kind : TraceKind) : (s.kilnChange k id kl f kind).seen v = s.seen v :=
  (writeTrace_seen ..).trans (modifyCharge_seen_found (s := s.setKiln k kl) ho hc hf)

/-! ## Takes that a view of the kilns' work does not see -/

/-- Every DONE of `act` from an ordered table leaves the charges as the view sees them. -/
def Act.Unseen (v : Charge → β) (act : Act) : Prop := ∀ p r s, s.Ordered → Gives (fun x => x.1.seen v = s.seen v) (act p r s)

theorem take_seen (hv : KilnView v) {i : Instr} {x : Port × Byte} (ht : takenBy i = some x) (ha : (actOf i).Unseen v)
    (ho : s.Ordered) (h : exec i s = .next t) : t.seen v = s.seen v := by
  refine take_keeps (Inv := fun u => u.seen v = s.seen v) (fun _ _ h => h) ht (fun p r u _ hu y hy => ?_) rfl h
  exact (ha p r u (hv.ordered ho hu) y hy).trans hu

theorem setSamples_seen (hv : KilnView v) (ho : s.Ordered) (hc : s.charge id = some c) (l : List Sample) :
    (s.setSamples c l).seen v = s.seen v :=
  (raiseIf_seen _ _ _).trans (modifyCharge_seen_found ho (charge_found hc) (hv.samples c l))

theorem setSamplesAct_unseen (hv : KilnView v) : setSamplesAct.Unseen v := fun _ _ _ ho =>
  .bind fun _ => .bind' fun _ hc => .bind fun _ => .pure (setSamples_seen hv ho (orRefuse_ok hc) _)

theorem sampleWeightsAct_unseen (hv : KilnView v) : sampleWeightsAct.Unseen v := fun _ _ _ ho =>
  .bind fun _ => .bind' fun _ hc => .bind fun _ => .bind fun _ => .bind fun _ =>
    .pure (setSamples_seen hv ho (orRefuse_ok hc) _)

/-- The charge of a kiln is found under its own id. -/
theorem kilnCharge_found {k : KilnNo} (h : s.kilnCharge k = some c) : s.charge c.id = some c := by
  obtain ⟨id, _, hc⟩ := Option.bind_eq_some_iff.1 h
  exact charge_found hc

theorem kilnCommand_unseen {rule : KilnNo → Charge → Schedule → State → Option State}
    (h : ∀ k c x s t, s.Ordered → s.charge c.id = some c → rule k c x s = some t → t.seen v = s.seen v) :
    (kilnCommand rule).Unseen v := fun _ _ s ho =>
  .bind fun k => .bind fun _ => .bind' fun c hc => .bind fun x => .bind' fun t ht =>
    .pure (h k c x s t ho (kilnCharge_found (orRefuse_ok hc)) (orRefuse_ok ht))

theorem startRule_unseen (hv : KilnView v) : (kilnCommand startRule).Unseen v := kilnCommand_unseen fun k c x s t ho hc ht => by
  unfold startRule at ht
  split at ht <;> cases ht
  rename_i hs
  exact kilnChange_seen ho hc (hv.working c (.active .drying) (by rw [hs]; rfl) rfl) _ _ _

theorem holdRule_unseen (hv : KilnView v) : (kilnCommand holdRule).Unseen v := kilnCommand_unseen fun k c x s t ho hc ht => by
  unfold holdRule at ht
  split at ht <;> cases ht
  rename_i ph hs
  exact kilnChange_seen ho hc (hv.working c (.held ph .command) (by rw [hs]; rfl) rfl) _ _ _

theorem resumeRule_unseen (hv : KilnView v) : (kilnCommand resumeRule).Unseen v :=
  kilnCommand_unseen fun k c x s t ho hc ht => by
    unfold resumeRule at ht
    split at ht <;> cases ht
    rename_i ph why hs
    exact kilnChange_seen ho hc (hv.working c (.active ph) (by rw [hs]; rfl) rfl) _ _ _

theorem require_ok {b : Bool} {e : Reason} {u : Unit} (h : require b e = .ok u) : b = true := by
  unfold require at h
  split at h
  · assumption
  · cases h

end

end Sys2Proof.Machine

end

section
/-! SUPPORT. The work of the planer line and of the lots and packs, as views of the charges see it. -/

namespace Sys2Proof.Machine

/-- A view of charges that shows no more of the planer line's work than whether a schedule is held in use. -/
structure LineView {β : Type} (v : Charge → β) : Prop where
  stats : ∀ (c : Charge) x, v { c with stats := x } = v c
  flags : ∀ (c : Charge) fl, v { c with flags := fl } = v c
  idle : ∀ (c : Charge) st, usesSchedule c.state = false → usesSchedule st = false → v { c with state := st } = v c

/-- A view of charges that does not show who references them. -/
def BookView {β : Type} (v : Charge → β) : Prop := ∀ (c : Charge) n, v { c with refs := n } = v c

section

variable {β : Type} {v : Charge → β} {s t : State} {id : Nat} {c : Charge}

/-! ## The planer line -/

theorem settle_view (hv : LineView v) (b : Bool) (c : Charge) : v (c.settle b) = v c := by
  unfold Charge.settle
  split
  · rename_i h
    exact hv.idle c .planed (by rw [h.1]; rfl) rfl
  · rfl

theorem planed_view (hv : LineView v) (c : Charge) : v c.planed = v c := by
  unfold Charge.planed
  split
  · rename_i h
    exact hv.idle c .planed (by rw [h]; rfl) rfl
  · rfl

theorem unplane_view (hv : LineView v) (c : Charge) : v c.unplane = v c := by
  unfold Charge.unplane
  split
  · rename_i h
    exact (hv.stats { c with state := .released } _).trans (hv.idle c .released (by rw [h]; rfl) rfl)
  · rfl

/-- A RELEASED charge that becomes PLANING held no schedule in use. -/
theorem plane_view (hv : LineView v) (h : (c.state == .released) = true) : v c.plane = v c :=
  hv.idle c .planing (by rw [eq_of_beq h]; rfl) rfl

theorem fedBack_view (hv : LineView v) (c : Charge) (minimum limit : Nat) (cls : BoardClass) (reading : Nat) :
    v (c.fedBack minimum limit cls reading) = v c := by
  unfold Charge.fedBack
  dsimp only
  split
  · exact (hv.flags { c with stats := c.stats.classified cls reading } _).trans (hv.stats c _)
  · exact hv.stats c _

theorem settle_seen (hv : LineView v) (s : State) (id : Nat) : (s.settle id).seen v = s.seen v :=
  modifyCharge_seen (settle_view hv _) s id

theorem boardLeft_seen (hv : LineView v) (s : State) (id : Nat) : (s.boardLeft id).seen v = s.seen v :=
  (settle_seen hv _ _).trans (modifyCharge_seen (f := Charge.land) (fun c => hv.stats c _) s id)

/-- A fold of changes that the view does not see. -/
theorem foldl_seen {α : Type} {g : State → α → State} (hg : ∀ s a, (g s a).seen v = s.seen v) :
    ∀ (l : List α) (s : State), (l.foldl g s).seen v = s.seen v
  | [], _ => rfl
  | a :: l, s => (foldl_seen hg l _).trans (hg s a)

theorem loseOldest_seen (hv : LineView v) (s : State) (n : Run) : (s.loseOldest n).1.seen v = s.seen v := by
  unfold State.loseOldest
  split
  · rfl
  · exact boardLeft_seen hv _ _

theorem roomInB_seen (hv : LineView v) (s : State) (n : Run) : (s.roomInB n).1.seen v = s.seen v := by
  unfold State.roomInB
  split
  · exact loseOldest_seen hv s n
  · rfl

theorem overrunA_seen (hv : LineView v) (s : State) (n : Run) : (s.overrunA n).1.seen v = s.seen v := by
  unfold State.overrunA
  split
  · rfl
  · exact roomInB_seen hv s n

/-- The state and the run in which an arriving board finds a place in queue A (R127). -/
def State.roomInA (s : State) (n : Run) : State × Run := if Config.queueABoards ≤ n.queueA.length then s.overrunA n else (s, n)

theorem boardArrives_eq (s : State) (n : Run) :
    s.boardArrives n = ((s.roomInA n).1.withRun (some ((s.roomInA n).2.append ((s.roomInA n).2.sources.headD 0)))).modifyCharge
      ((s.roomInA n).2.sources.headD 0) Charge.fly := rfl

theorem roomInA_seen (hv : LineView v) (s : State) (n : Run) : (s.roomInA n).1.seen v = s.seen v := by
  unfold State.roomInA
  split
  · exact overrunA_seen hv s n
  · rfl

theorem boardArrives_seen (hv : LineView v) (s : State) (n : Run) : (s.boardArrives n).seen v = s.seen v := by
  rw [boardArrives_eq]
  exact (modifyCharge_seen (f := Charge.fly) (fun c => hv.stats c _) _ _).trans (roomInA_seen hv s n)

theorem eyeRises_seen (hv : LineView v) (s : State) : s.eyeRises.seen v = s.seen v := by
  unfold State.eyeRises
  split
  · rfl
  · dsimp only
    split
    · exact boardArrives_seen hv _ _
    · rfl

theorem feedBack_seen (hv : LineView v) (ho : s.Ordered) (b : Board) : (s.feedBack b).seen v = s.seen v := by
  unfold State.feedBack
  split
  · rename_i reading cls c _ _ hc
    exact (raiseIf_seen _ _ _).trans (modifyCharge_seen_found ho (charge_found hc) (fedBack_view hv ..))
  · rfl

theorem pairFrame_seen (hk : KilnView v) (hv : LineView v) (ho : s.Ordered) (n : Run) (x : MeterFrame) (b : Board)
    (rest : List Board) : (s.pairFrame n x b rest).seen v = s.seen v := by
  have room := roomInB_seen hv s n
  refine Eq.trans (feedBack_seen hv ?_ _) room
  exact hk.ordered ho room

theorem frameInRun_seen (hk : KilnView v) (hv : LineView v) (ho : s.Ordered) (n : Run) (x : MeterFrame) :
    (s.frameInRun n x).seen v = s.seen v := by
  have metered := raiseIf_seen (v := v) (s.withRun (some (n.metered (s.param 13) x.isSome)))
    ((n.metered (s.param 13) x.isSome).meter != n.meter) .meterState
  unfold State.frameInRun
  dsimp only
  split
  · exact metered
  · exact (pairFrame_seen hk hv (hk.ordered ho metered) _ _ _ _).trans metered

theorem frameArrives_seen (hk : KilnView v) (hv : LineView v) (ho : s.Ordered) (x : MeterFrame) :
    (s.frameArrives x).seen v = s.seen v := by
  unfold State.frameArrives
  dsimp only
  split
  · exact frameInRun_seen hk hv (s := s.withTracker { s.tracker with receiver := [] }) ho _ _
  · rfl

theorem fifthByte_seen (hk : KilnView v) (hv : LineView v) (ho : s.Ordered) (x : MeterByte) :
    (s.fifthByte x).seen v = s.seen v := by
  unfold State.fifthByte
  split
  · exact frameArrives_seen hk hv ho _
  · rfl

theorem meterIdle_seen (hk : KilnView v) (hv : LineView v) (ho : s.Ordered) : s.meterIdle.seen v = s.seen v := by
  unfold State.meterIdle
  split
  · rfl
  · exact frameArrives_seen hk hv ho _

theorem dispatch_seen (hv : LineView v) (s : State) (n : Run) (b : Board) (d : Decision) :
    (s.dispatch n b d).seen v = s.seen v := by
  have left := boardLeft_seen hv (s.withRun (some (n.decided b d))) b.charge
  unfold State.dispatch
  dsimp only
  split <;> exact left

/-! ## Takes of the planer line -/

theorem openRunAct_unseen (hv : LineView v) : openRunAct.Unseen v := fun _ _ s ho =>
  .bind fun _ => .bind fun _ => .bind fun _ => .bind' fun _ hc => .bind' fun _ hs =>
    .pure (modifyCharge_seen_found (s := s.withTracker _) ho (charge_found (s := s) (orRefuse_ok hc))
      (plane_view hv (require_ok hs)))

theorem addSourceAct_unseen (hv : LineView v) : addSourceAct.Unseen v := fun _ _ s ho =>
  .bind fun _ => .bind fun _ => .bind fun _ => .bind fun _ => .bind' fun c hc => .bind' fun _ hs => .bind fun _ =>
    .pure (modifyCharge_seen_found (s := s.withRun _) ho (orRefuse_ok hc)
      ((hv.stats c.plane _).trans (plane_view hv (require_ok hs))))

theorem advanceSourceAct_unseen (hv : LineView v) : advanceSourceAct.Unseen v := fun _ _ _ _ => by
  refine .bind fun _ => .bind fun _ => ?_
  split
  · exact .pure (settle_seen hv _ _)
  · exact .error _

theorem planeAll_seen (hv : LineView v) (s : State) (l : List Nat) : (s.planeAll l).seen v = s.seen v :=
  foldl_seen (fun s id => modifyCharge_seen (planed_view hv) s id) l s

theorem settleAll_seen (hv : LineView v) (s : State) (l : List Nat) : (s.settleAll l).seen v = s.seen v :=
  foldl_seen (fun s id => settle_seen hv s id) l s

theorem closeRunAct_unseen (hv : LineView v) : closeRunAct.Unseen v := fun _ _ s _ =>
  .bind fun _ => .bind fun _ => .ite (.pure (planeAll_seen hv s _)) (.pure (settleAll_seen hv (s.withRun _) _))

theorem abortRunAct_unseen (hv : LineView v) : abortRunAct.Unseen v := fun _ _ s _ =>
  .bind fun _ => .bind fun n => .pure (foldl_seen (fun s id => modifyCharge_seen (unplane_view hv) s id) n.charges s)

/-! ## Lots and packs -/

/-- The label engine and the closing of packs leave the charges alone. -/
theorem closePack_seen (s : State) (lbsy : Bool) (id : Nat) (cause : CloseCause) :
    (s.closePack lbsy id cause).seen v = s.seen v :=
  seen_of_charges (((Within.refl s).closePack (P := fun b => match b with | .packs | .label => true | _ => false) rfl rfl
    lbsy id cause).blocks .charges rfl)

theorem addRef_seen (hv : BookView v) (s : State) (id : Nat) : (s.addRef id).seen v = s.seen v :=
  modifyCharge_seen (f := fun c => { c with refs := c.refs + 1 }) (fun c => hv c _) s id

theorem dropRefs_seen (hv : BookView v) (s : State) (cs : List Contributor) : (s.dropRefs cs).seen v = s.seen v :=
  foldl_seen (g := fun s (x : Contributor) => s.dropRef x.charge)
    (fun s x => modifyCharge_seen (f := fun c => { c with refs := c.refs - 1 }) (fun c => hv c _) s x.charge) cs s

theorem joinLot_seen (hv : BookView v) (s : State) (x : Lot) (charge volume : Nat) :
    (s.joinLot x charge volume).seen v = s.seen v := by
  unfold State.joinLot
  dsimp only
  split
  · exact addRef_seen hv _ _
  · rfl

theorem handToLot_seen (hv : BookView v) (s : State) (sp th charge volume : Nat) :
    (s.handToLot sp th charge volume).1.seen v = s.seen v := by
  unfold State.handToLot
  split
  · exact joinLot_seen hv _ _ _ _
  · split
    · exact joinLot_seen hv _ _ _ _
    · rfl

/-- The state in which an added board stands in its pack, before the pack may close (R158). -/
def State.boardAdded (s : State) (q : Pack) (b : HandedBoard) : State :=
  if joinLists q.contributors b.charge then (s.modifyPack q.id fun _ => q.add b).addRef b.charge
  else s.modifyPack q.id fun _ => q.add b

theorem addBoard_eq (s : State) (lbsy : Bool) (q : Pack) (b : HandedBoard) :
    s.addBoard lbsy q b = match (q.add b).closeAfter (s.target q.bin) with
      | some cause => (s.boardAdded q b).closePack lbsy q.id cause
      | none => s.boardAdded q b := rfl

theorem addBoard_seen (hv : BookView v) (s : State) (lbsy : Bool) (q : Pack) (b : HandedBoard) :
    (s.addBoard lbsy q b).seen v = s.seen v := by
  have added : (s.boardAdded q b).seen v = s.seen v := by
    unfold State.boardAdded
    split
    · exact addRef_seen hv _ _
    · rfl
  rw [addBoard_eq]
  split
  · exact (closePack_seen ..).trans added
  · exact added

theorem openForBoard_seen (hv : BookView v) (s : State) (lbsy : Bool) (bin : Nat) (b : HandedBoard) :
    (s.openForBoard lbsy bin b).1.seen v = s.seen v := by
  unfold State.openForBoard
  split
  · exact addBoard_seen hv _ _ _ _
  · unfold State.refuseBoard
    dsimp only
    split <;> rfl

theorem handToBin_seen (hv : BookView v) (s : State) (lbsy : Bool) (bin : Nat) (b : HandedBoard) :
    (s.handToBin lbsy bin b).1.seen v = s.seen v := by
  unfold State.handToBin
  split
  · split
    · exact addBoard_seen hv _ _ _ _
    · exact (openForBoard_seen hv ..).trans (closePack_seen ..)
  · exact openForBoard_seen hv ..

/-- A sort decision changes nothing, or hands the board to a redry lot, or to a bin (R134). -/
theorem sortBoard_cases (s : State) (lbsy : Bool) (n : Run) (b : Board) (g : GradeReport) :
    (s.sortBoard lbsy n b g).1 = s ∨
      (∃ sp th volume, (s.sortBoard lbsy n b g).1 = (s.handToLot sp th b.charge volume).1) ∨
      ∃ bin x, HandedBoard.charge x = b.charge ∧ (s.sortBoard lbsy n b g).1 = (s.handToBin lbsy bin x).1 := by
  unfold State.sortBoard
  split
  · refine .inr (.inl ⟨n.species, n.thickness, s.volumeOf n b g, ?_⟩)
    dsimp only
    split <;> rfl
  · split
    · exact .inl rfl
    · unfold State.sortToBin
      dsimp only
      split
      · exact .inl rfl
      · rename_i bin _
        refine .inr (.inr ⟨bin, ⟨b.charge, ⟨n.species, n.thickness, g.width, g.grade, bandOf s.library.bands g.length⟩,
          s.volumeOf n b g, b.reading, b.cls.getD .noReading⟩, rfl, ?_⟩)
        split <;> rfl

theorem sortBoard_seen (hv : BookView v) (s : State) (lbsy : Bool) (n : Run) (b : Board) (g : GradeReport) :
    (s.sortBoard lbsy n b g).1.seen v = s.seen v := by
  rcases sortBoard_cases s lbsy n b g with e | ⟨sp, th, volume, e⟩ | ⟨bin, x, _, e⟩ <;> rw [e]
  · exact handToLot_seen hv ..
  · exact handToBin_seen hv ..

theorem boardGradeAct_unseen (hl : LineView v) (hv : BookView v) (lbsy : Bool) : (boardGradeAct lbsy).Unseen v :=
  fun _ _ _ _ => .bind fun _ => .bind fun _ => .bind fun _ => .bind fun _ =>
    .pure ((dispatch_seen hl ..).trans (sortBoard_seen hv ..))

theorem releasePackAct_unseen (hv : BookView v) : releasePackAct.Unseen v := fun _ _ s _ =>
  .bind fun _ => .bind fun _ => .bind fun _ => .bind fun _ => .pure (dropRefs_seen hv s _)

end

/-! ## Charges as the in-use counts see them -/

/-- A charge as the in-use counts see it: its id, its schedule, and whether it holds that schedule in use. -/
def Charge.use (c : Charge) : Nat × Option Nat × Bool := (c.id, c.schedule, usesSchedule c.state)

/-- The Charge Table as the in-use counts see it. -/
abbrev State.uses (s : State) : List (Nat × Option Nat × Bool) := s.seen Charge.use

theorem use_kilnView : KilnView Charge.use where
  id := ⟨Prod.fst, fun _ => rfl⟩
  samples := fun _ _ => rfl
  flags := fun _ _ => rfl
  heat := fun _ _ => rfl
  working := fun c st hc hs => by simp [Charge.use, hc, hs]

theorem use_lineView : LineView Charge.use where
  stats := fun _ _ => rfl
  flags := fun _ _ => rfl
  idle := fun c st hc hs => by simp [Charge.use, hc, hs]

theorem use_bookView : BookView Charge.use := fun _ _ => rfl

/-- What is seen of the charge found under an id. -/
theorem charge_use (s : State) (id : Nat) : (s.charge id).map Charge.use = s.uses.find? fun u => u.1 == id := by
  rw [State.uses, State.seen, List.find?_map]; rfl

end Sys2Proof.Machine

end

section
/-! SUPPORT. The in-use counts (R46): who takes a schedule in use, who gives it back, and that no other command counts. -/

namespace Sys2Proof.Machine

/-- Whether a charge holds schedule `n` in use (R46). -/
def Charge.holds (c : Charge) (n : Nat) : Bool := usesSchedule c.state && c.schedule == some n

section

variable {s t : State} {id m n : Nat} {c : Charge} {f : Charge → Charge}

/-! ## What the invariant looks at -/

theorem users_eq (s : State) (n : Nat) : s.users n = s.charges.entries.countP fun c => c.holds n :=
  List.countP_eq_length_filter.symm

theorem users_uses (s : State) (n : Nat) : s.users n = s.uses.countP fun u => u.2.2 && u.2.1 == some n := by
  rw [users_eq, State.uses, State.seen, List.countP_map]
  rfl

theorem inUse_of_eq (h : t.library.inUse = s.library.inUse) (n : Nat) : t.inUse n = s.inUse n := by
  rw [State.inUse, h]
  rfl

/-- Charges that are seen as they were, and a library whose in-use counts stand. -/
theorem InUseOk.of_uses (h : InUseOk s) (hu : t.uses = s.uses) (hl : t.library.inUse = s.library.inUse)
    (hx : ∀ x ∈ t.library.schedules, 1 ≤ x.number ∧ x.number ≤ 16) : InUseOk t where
  counts := fun n h1 h16 => by rw [inUse_of_eq hl, users_uses, hu, ← users_uses]; exact h.counts n h1 h16
  numbers := fun c hc n hn => by
    obtain ⟨d, hd, same⟩ := exists_mem_of_map_eq hu hc
    exact h.numbers d hd n ((congrArg (·.2.1) same).trans hn)
  named := fun c hc hs => by
    obtain ⟨d, hd, same⟩ := exists_mem_of_map_eq hu hc
    have schedule : d.schedule = c.schedule := congrArg (·.2.1) same
    exact schedule ▸ h.named d hd ((congrArg (·.2.2) same).trans hs)
  keys := by
    have length : t.charges.entries.length = s.charges.entries.length := by
      simpa [State.uses, State.seen] using congrArg List.length hu
    exact ⟨length ▸ h.keys.1, use_kilnView.ordered h.keys.2 hu⟩
  library := hx

theorem InUseOk.of_library (h : InUseOk s) (hu : t.uses = s.uses) (hl : t.library = s.library) : InUseOk t :=
  h.of_uses hu (by rw [hl]) (hl ▸ h.library)

theorem inUseOk_blockInv : BlockInv InUseOk := fun _ _ h => h.of_library rfl rfl

/-! ## The counts -/

theorem slot1_ne (hm : 1 ≤ m ∧ m ≤ 16) (hn : 1 ≤ n ∧ n ≤ 16) (h : m ≠ n) : slot1 15 m ≠ slot1 15 n := by
  intro e
  have value := congrArg Fin.val e
  simp only [slot1, Fin.val_ofNat] at value
  omega

theorem setInUse_inUse (hm : 1 ≤ m ∧ m ≤ 16) (hn : 1 ≤ n ∧ n ≤ 16) (s : State) (count : Nat) :
    (s.setInUse m count).inUse n = if m = n then count else s.inUse n := by
  split
  · rename_i e
    rw [← e]
    exact Table.get_set_same _ _ _
  · rename_i e
    exact Table.get_set_ne _ _ (slot1_ne hm hn e)

/-- A change of one charge changes the users of a schedule by that charge alone. -/
theorem users_modify (ho : s.Ordered) (hc : s.charge id = some c)
    (ht : t.charges.entries = keyModify Charge.id id f s.charges.entries) (n : Nat) :
    t.users n + (c.holds n).toNat = s.users n + ((f c).holds n).toNat := by
  have before := (Rising.perm_keyErase ho (charge_mem hc)).countP_eq fun c => c.holds n
  have after := (Rising.keyModify_perm ho f (charge_mem hc)).countP_eq fun c => c.holds n
  rw [charge_id hc, ← ht] at after
  rw [users_eq, users_eq, after, before, List.countP_cons, List.countP_cons, charge_id hc]
  cases c.holds n <;> cases (f c).holds n <;> simp [Nat.add_comm]

/-- One charge changes, and with it the count of every schedule that it takes or gives back. -/
theorem InUseOk.modify (h : InUseOk s) (hc : s.charge id = some c) (hid : ∀ d, (f d).id = d.id)
    (hnum : ∀ n, (f c).schedule = some n → 1 ≤ n ∧ n ≤ 16)
    (hnamed : usesSchedule (f c).state = true → (f c).schedule.isSome = true)
    (ht : t.charges.entries = keyModify Charge.id id f s.charges.entries)
    (hx : t.library.schedules = s.library.schedules)
    (hl : ∀ n, 1 ≤ n ∧ n ≤ 16 → t.inUse n + (c.holds n).toNat = s.inUse n + ((f c).holds n).toNat) : InUseOk t where
  counts := fun n h1 h16 => by
    have users := users_modify h.keys.2 hc ht n
    have counted := hl n ⟨h1, h16⟩
    have old := h.counts n h1 h16
    omega
  numbers := fun d hd => by
    rw [ht] at hd
    rcases mem_keyModify hd with ⟨hd, _⟩ | ⟨e, he, hk, rfl⟩
    · exact h.numbers d hd
    · rw [h.keys.2.keyFind_eq hc he hk]
      exact hnum
  named := fun d hd => by
    rw [ht] at hd
    rcases mem_keyModify hd with ⟨hd, _⟩ | ⟨e, he, hk, rfl⟩
    · exact h.named d hd
    · rw [h.keys.2.keyFind_eq hc he hk]
      exact hnamed
  keys := by
    rw [ht]
    exact ⟨by rw [length_keyModify]; exact h.keys.1, rising_keyModify id (fun d hd => (hid d).trans hd) h.keys.2⟩
  library := hx ▸ h.library

/-- A charge that held no schedule takes schedule `m` in use (R59). -/
theorem InUseOk.takeUp (h : InUseOk s) (hc : s.charge id = some c) (hu : usesSchedule c.state = false)
    (hid : ∀ d, (f d).id = d.id) (hm : 1 ≤ m ∧ m ≤ 16) (hs : (f c).schedule = some m)
    (ht : t.charges.entries = keyModify Charge.id id f s.charges.entries) (hf : usesSchedule (f c).state = true)
    (hl : t.library = (s.setInUse m (s.inUse m + 1)).library) : InUseOk t := by
  refine h.modify hc hid (fun n hn => ?_) (fun _ => by rw [hs]; rfl) ht (by rw [hl]; rfl) fun n hn => ?_
  · rw [hs] at hn
    cases hn
    exact hm
  · have count : t.inUse n = (s.setInUse m (s.inUse m + 1)).inUse n := inUse_of_eq (by rw [hl]) n
    rw [count, setInUse_inUse hm hn]
    by_cases e : m = n <;> simp [Charge.holds, hu, hf, hs, e]

/-- A charge that held schedule `m` gives it back (R61, R89). -/
theorem InUseOk.giveBack (h : InUseOk s) (hc : s.charge id = some c) (hu : usesSchedule c.state = true)
    (hm : c.schedule = some m) (hid : ∀ d, (f d).id = d.id) (hf : usesSchedule (f c).state = false)
    (hs : ∀ n, (f c).schedule = some n → c.schedule = some n)
    (ht : t.charges.entries = keyModify Charge.id id f s.charges.entries)
    (hl : t.library = (s.setInUse m (s.inUse m - 1)).library) : InUseOk t := by
  have range := h.numbers c (charge_mem hc)
  have number := range m hm
  have held : 1 ≤ s.inUse m := by
    rw [h.counts m number.1 number.2, users_eq]
    exact List.countP_pos_iff.2 ⟨c, charge_mem hc, by simp [Charge.holds, hu, hm]⟩
  refine h.modify hc hid (fun n hn => range n (hs n hn)) (fun h => ?_) ht (by rw [hl]; rfl) fun n hn => ?_
  · rw [hf] at h
    cases h
  · have count : t.inUse n = (s.setInUse m (s.inUse m - 1)).inUse n := inUse_of_eq (by rw [hl]) n
    rw [count, setInUse_inUse number hn]
    by_cases e : m = n
    · subst e
      simp [Charge.holds, hu, hf, hm]
      omega
    · simp [Charge.holds, hu, hf, hm, e]

/-! ## New and retired charges -/

/-- A new charge under an id that no entry holds, while an entry is free. -/
theorem InUseOk.addCharge (h : InUseOk s) (hfree : s.chargeEntryFree = true) (hid : ∀ d ∈ s.charges.entries, d.id ≠ c.id)
    (hs : c.state = .staged) (hn : c.schedule = none) : InUseOk (s.addCharge c) := by
  have room : s.charges.entries.length < 32 := of_decide_eq_true hfree
  have perm : (s.addCharge c).charges.entries.Perm (c :: s.charges.entries) := Rising.keyPut_perm_absent h.keys.2 hid
  refine ⟨fun n h1 h16 => ?_, fun d hd => ?_, fun d hd => ?_, ⟨?_, rising_keyPut c h.keys.2⟩, h.library⟩
  · have counted : (s.addCharge c).inUse n = s.users n := h.counts n h1 h16
    rw [counted, users_eq (s.addCharge c), perm.countP_eq, List.countP_cons, ← users_eq]
    simp [Charge.holds, hs, usesSchedule]
  · rcases List.mem_cons.1 (perm.mem_iff.1 hd) with rfl | hd
    · rw [hn]; nofun
    · exact h.numbers d hd
  · rcases List.mem_cons.1 (perm.mem_iff.1 hd) with rfl | hd
    · rw [hs]; nofun
    · exact h.named d hd
  · rw [perm.length_eq, List.length_cons]
    omega

/-- While the table has a free entry, the id of the next charge is held by no entry (R56). -/
theorem nextChargeId_free (h : s.chargeEntryFree = true) : ∀ d ∈ s.charges.entries, d.id ≠ s.nextChargeId := by
  intro d hd e
  have room : s.charges.entries.length < 32 := of_decide_eq_true h
  have free : s.nextChargeId ∉ s.charges.entries.map Charge.id := newId_not_mem (by rw [List.length_map]; omega) _
  exact free (e ▸ List.mem_map_of_mem hd)

theorem InUseOk.eraseCharge (h : InUseOk s) (hc : s.charge id = some c) (hs : usesSchedule c.state = false)
    (ht : t.charges.entries = keyErase Charge.id id s.charges.entries) (hl : t.library = s.library) : InUseOk t := by
  have perm := Rising.perm_keyErase h.keys.2 (charge_mem hc)
  rw [charge_id hc, ← ht] at perm
  have mem {d : Charge} (hd : d ∈ t.charges.entries) : d ∈ s.charges.entries := perm.mem_iff.2 (List.mem_cons_of_mem _ hd)
  refine ⟨fun n h1 h16 => ?_, fun d hd => h.numbers d (mem hd), fun d hd => h.named d (mem hd), ⟨?_, ?_⟩, hl ▸ h.library⟩
  · have counted := h.counts n h1 h16
    rw [users_eq, perm.countP_eq, List.countP_cons, ← users_eq] at counted
    rw [inUse_of_eq (s := s) (by rw [hl]), counted]
    simp [Charge.holds, hs]
  · rw [ht]
    exact (length_keyErase ..).trans h.keys.1
  · rw [ht]
    exact rising_keyErase id h.keys.2

/-! ## Kilns -/

/-- The parts of a minute that change kiln records and the trace alone. -/
def kilnsAndTrace : Block → Bool
  | .kilns | .trace => true
  | _ => false

theorem minuteAge_within (k : KilnNo) (id : Nat) (s : State) : Within kilnsAndTrace s (minuteAge k id s) :=
  .ite ((((Within.refl s).setKiln rfl k _).raiseAll _).writeTrace rfl k id _) ((Within.refl s).setKiln rfl k _)

theorem minuteCount_within (k : KilnNo) (st : ChargeState) (s : State) : Within kilnsAndTrace s (minuteCount k st s) :=
  (Within.refl s).setKiln rfl k _

theorem minuteDeviation_within (k : KilnNo) (id : Nat) (st : ChargeState) (s : State) :
    Within kilnsAndTrace s (minuteDeviation k id st s) := by
  unfold minuteDeviation
  split
  · exact .ite (.refl s) ((((Within.refl s).setKiln rfl k _).raiseAll _).writeTrace rfl k id _)
  · exact .refl s

theorem minuteRamp_within (k : KilnNo) (st : ChargeState) (x : Schedule) (s : State) :
    Within kilnsAndTrace s (minuteRamp k st x s) := by
  unfold minuteRamp
  split
  · exact (Within.refl s).setKiln rfl k _
  · exact .refl s

theorem minuteOvertime_within (k : KilnNo) (st : ChargeState) (x : Schedule) (s : State) :
    Within kilnsAndTrace s (minuteOvertime k st x s) :=
  .ite (((Within.refl s).setKiln rfl k _).raiseAll _) (.refl s)

theorem minuteChart_within (k : KilnNo) (id : Nat) (s : State) : Within kilnsAndTrace s (minuteChart k id s) :=
  .ite (.ite (((Within.refl s).setKiln rfl k _).writeTrace rfl k id _) ((Within.refl s).setKiln rfl k _)) (.refl s)

/-- The state that the triggers of part 6 find (R76 to R85). -/
def minuteBefore (k : KilnNo) (c : Charge) (x : Schedule) (s : State) : State :=
  minuteOvertime k c.state x
    (minuteHeat k c (minuteRamp k c.state x (minuteDeviation k c.id c.state (minuteCount k c.state (minuteAge k c.id s)))))

theorem minuteParts_eq (k : KilnNo) (c : Charge) (x : Schedule) (s : State) :
    minuteParts k c x s = minuteChart k c.id (minuteTrigger k c x (minuteBefore k c x s)) := rfl

/-- Part 5 writes the heat accrual and its flag alone (R84). -/
theorem minuteHeat_seen {β : Type} {v : Charge → β} (hv : KilnView v) (k : KilnNo) (c : Charge) (s : State) :
    (minuteHeat k c s).seen v = s.seen v := by
  have certified (d : Charge) (n : Nat) (fl : ChargeFlags) : v { d with htAccrual := n, flags := fl } = v d :=
    (hv.flags { d with htAccrual := n } fl).trans (hv.heat d n)
  unfold minuteHeat
  split
  · rfl
  · split
    · split
      · exact (writeTrace_seen ..).trans (modifyCharge_seen (fun d => certified d _ _) s c.id)
      · exact modifyCharge_seen (fun d => hv.heat d _) s c.id
    · exact modifyCharge_seen (fun d => hv.heat d _) s c.id

theorem minuteHeat_within (k : KilnNo) (c : Charge) (s : State) :
    Within (fun b => match b with | .charges | .trace => true | _ => false) s (minuteHeat k c s) :=
  .ite (.refl s) (.ite (.ite ((((Within.refl s).modifyCharge rfl _ _).raiseAll _).writeTrace rfl k _ _)
    ((Within.refl s).modifyCharge rfl _ _)) ((Within.refl s).modifyCharge rfl _ _))

/-- Of the charges the parts before the triggers change the heat alone. -/
theorem minuteBefore_seen {β : Type} {v : Charge → β} (hv : KilnView v) (k : KilnNo) (c : Charge) (x : Schedule)
    (s : State) : (minuteBefore k c x s).seen v = s.seen v := by
  have ramped := (((minuteAge_within k c.id s).trans (minuteCount_within k c.state _)).trans
    (minuteDeviation_within k c.id c.state _)).trans (minuteRamp_within k c.state x _)
  have overtime := minuteOvertime_within k c.state x (minuteHeat k c (minuteRamp k c.state x
    (minuteDeviation k c.id c.state (minuteCount k c.state (minuteAge k c.id s)))))
  exact (seen_of_charges (overtime.blocks .charges rfl)).trans
    ((minuteHeat_seen hv k c _).trans (seen_of_charges (ramped.blocks .charges rfl)))

/-- They change the kilns, the charges and the trace alone. -/
theorem minuteBefore_within (k : KilnNo) (c : Charge) (x : Schedule) (s : State) :
    Within (fun b => match b with | .kilns | .charges | .trace => true | _ => false) s (minuteBefore k c x s) := by
  have wide {P : Block → Bool} {u v : State} (h : Within P u v)
      (hP : ∀ b, P b = true → b = .kilns ∨ b = .charges ∨ b = .trace) :
      Within (fun b => match b with | .kilns | .charges | .trace => true | _ => false) u v :=
    ⟨fun b hb => h.blocks b (by
      by_contra hp
      rcases hP b (by simpa using hp) with rfl | rfl | rfl <;> cases hb), h.alerts⟩
  have kilns {u v : State} (h : Within kilnsAndTrace u v) := wide h fun b hb => by cases b <;> cases hb <;> simp
  exact (((((kilns (minuteAge_within k c.id s)).trans (kilns (minuteCount_within ..))).trans
    (kilns (minuteDeviation_within ..))).trans (kilns (minuteRamp_within ..))).trans
    (wide (minuteHeat_within ..) fun b hb => by cases b <;> cases hb <;> simp)).trans (kilns (minuteOvertime_within ..))

theorem writeTrace_library (s : State) (k : KilnNo) (id : Nat) (kind : TraceKind) :
    (s.writeTrace k id kind).library = s.library := by
  rw [State.writeTrace_eq]; rfl

theorem kilnChange_charges (s : State) (k : KilnNo) (id : Nat) (kl : Kiln) (f : Charge → Charge) (kind : TraceKind) :
    (s.kilnChange k id kl f kind).charges = (s.modifyCharge id f).charges := State.writeTrace_charges ..

theorem kilnChange_library (s : State) (k : KilnNo) (id : Nat) (kl : Kiln) (f : Charge → Charge) (kind : TraceKind) :
    (s.kilnChange k id kl f kind).library = s.library := writeTrace_library ..

/-- A change of step or phase of a charge that holds its schedule in use: the change to DRIED gives it back (R46, R89). -/
theorem InUseOk.applyChange (h : InUseOk s) {d : Charge} (hd : s.charge c.id = some d) (same : d.use = c.use)
    (hu : usesSchedule c.state = true) {more : Charge → Charge} (hmore : ∀ d, (more d).use = d.use) (k : KilnNo)
    (x : Schedule) (ch : Change) (kind : TraceKind) : InUseOk (s.applyChange k c x ch more kind) := by
  have schedule : d.schedule = c.schedule := congrArg (·.2.1) same
  have held : usesSchedule d.state = true := (congrArg (·.2.2) same).trans hu
  have id_eq (d : Charge) : (more d).id = d.id := congrArg (·.1) (hmore d)
  have working (st : ChargeState) (hst : usesSchedule st = true) : (more { d with state := st }).use = d.use := by
    rw [hmore]
    simp [Charge.use, hst, held]
  cases ch with
  | step n =>
    exact h.of_library (kilnChange_seen h.keys.2 hd (working d.state held) _ _ _) (kilnChange_library ..)
  | phase ph =>
    exact h.of_library (kilnChange_seen h.keys.2 hd (working (.active ph) rfl) _ _ _) (kilnChange_library ..)
  | dried =>
    obtain ⟨m, hm⟩ := Option.isSome_iff_exists.1 (h.named d (charge_mem hd) held)
    have returned : s.returnSchedule c .dried = s.setInUse m (s.inUse m - 1) := by
      simp only [State.returnSchedule, ← schedule, hm]
    refine h.giveBack (f := fun c => more { c with state := .dried }) hd held hm (fun d => id_eq _) ?_ (fun n hn => ?_) ?_ ?_
    · exact congrArg (·.2.2) (hmore { d with state := .dried })
    · exact (congrArg (·.2.1) (hmore { d with state := .dried })).symm.trans hn
    · rw [State.applyChange, returned, kilnChange_charges]
      rfl
    · rw [State.applyChange, returned, kilnChange_library]

theorem timedOut_use (b : Bool) (c : Charge) : (c.timedOut b).use = c.use := by cases b <;> rfl

theorem InUseOk.minuteTrigger (h : InUseOk s) {d : Charge} (hd : s.charge c.id = some d) (same : d.use = c.use) (k : KilnNo)
    (x : Schedule) : InUseOk (minuteTrigger k c x s) := by
  unfold Machine.minuteTrigger
  split
  · rename_i ph hs
    split
    · exact h.applyChange hd same (by rw [hs]; rfl) (timedOut_use _) k x _ _
    · exact h
  · exact h

theorem InUseOk.kilnMinute (h : InUseOk s) (k : KilnNo) : InUseOk (s.kilnMinute k) := by
  unfold State.kilnMinute
  split
  · rename_i c hc
    split
    · rename_i x hx
      split
      · have seen : (minuteBefore k c x s).uses = s.uses := minuteBefore_seen use_kilnView k c x s
        have before : InUseOk (minuteBefore k c x s) :=
          h.of_library seen ((minuteBefore_within k c x s).blocks .library rfl)
        have found := charge_use (minuteBefore k c x s) c.id
        rw [seen, ← charge_use, kilnCharge_found hc] at found
        obtain ⟨d, hd, same⟩ := Option.map_eq_some_iff.1 found
        have triggered := before.minuteTrigger hd same k x
        have chart := (minuteChart_within k c.id (Machine.minuteTrigger k c x (minuteBefore k c x s))).blocks
        rw [minuteParts_eq]
        exact triggered.of_library (seen_of_charges (chart .charges rfl)) (chart .library rfl)
      · exact h
    · exact h
  · exact h

/-! ## The acts -/

theorem putScheduleAct_inUseOk : putScheduleAct.Keeps InUseOk := fun _ _ _ _ h =>
  .bind fun _ => .bind' fun x hx => .bind fun _ => .pure (h.of_uses rfl rfl fun y hy => by
    rcases mem_keyPut hy with rfl | hy
    · exact (fields_gives (readSchedule_gives _) y hx).2
    · exact h.library y hy)

theorem deleteScheduleAct_inUseOk : deleteScheduleAct.Keeps InUseOk := fun _ _ _ _ h =>
  .bind fun _ => .bind fun _ => .bind fun _ => .bind fun _ => .pure
    (h.of_uses rfl rfl fun y hy => h.library y (mem_keyErase.1 hy).1)

theorem defineChargeAct_inUseOk : defineChargeAct.Keeps InUseOk := fun _ _ _ _ h =>
  .bind fun _ => .bind fun _ => .bind' fun _ hf => .pure
    (h.addCharge (require_ok hf) (nextChargeId_free (require_ok hf)) rfl rfl)

theorem convertLotAct_inUseOk : convertLotAct.Keeps InUseOk := fun _ _ s _ h =>
  .bind fun _ => .bind fun x => .bind' fun _ hf => .pure
    (have added : InUseOk (s.addCharge (x.charge s.nextChargeId)) :=
      h.addCharge (require_ok hf) (nextChargeId_free (require_ok hf)) rfl rfl
    added.of_library (dropRefs_seen use_bookView _ _)
      (((Within.refl _).dropRefs (P := fun b => match b with | .charges => true | _ => false) rfl _).blocks .library rfl))

theorem InUseOk.loadKiln (h : InUseOk s) (hc : s.charge c.id = some c) (hs : c.state = .staged) {x : Schedule}
    (hx : x ∈ s.library.schedules) (k : KilnNo) : InUseOk (s.loadKiln k c x) :=
  h.takeUp (f := fun c => { c with
      state := .loaded, kiln := some k, schedule := some x.number, finalTarget := some x.finalTarget
      firstTrace := some s.trace.next })
    hc (by rw [hs]; rfl) (fun _ => rfl) (h.library x hx) rfl (congrArg _ (State.writeTrace_charges ..)) rfl
    (writeTrace_library ..)

theorem loadAct_inUseOk : loadAct.Keeps InUseOk := fun _ _ s _ h => by
  refine .bind fun _ => .bind fun _ => .bind fun y => .bind fun _ => .bind' fun c hc => .bind' fun _ hs => .bind' fun x hx =>
    .bind fun _ => .pure ?_
  have found := charge_found (orRefuse_ok hc)
  exact h.loadKiln found (eq_of_beq (require_ok hs)) (keyFind_mem (orRefuse_ok hx)) _

theorem InUseOk.unloadLoaded (h : InUseOk s) (hc : s.charge c.id = some c) (hs : c.state = .loaded) (k : KilnNo) :
    InUseOk (s.unloadLoaded k c) := by
  have held : usesSchedule c.state = true := by rw [hs]; rfl
  obtain ⟨m, hm⟩ := Option.isSome_iff_exists.1 (h.named c (charge_mem hc) held)
  unfold State.unloadLoaded
  simp only [hm]
  exact h.giveBack hc held hm (f := fun c => { c with state := .staged, kiln := none, schedule := none, finalTarget := none })
    (fun _ => rfl) rfl nofun (congrArg _ (State.writeTrace_charges ..)) (writeTrace_library ..)

theorem unloadDried_uses (ho : s.Ordered) (hc : s.charge c.id = some c) (hs : c.state = .dried) (k : KilnNo) :
    (s.unloadDried k c).uses = s.uses :=
  (writeTrace_seen ..).trans (modifyCharge_seen_found (f := fun c => { c with state := .released, kiln := none }) ho hc
    (by simp [Charge.use, hs, usesSchedule]))

theorem unloadAct_inUseOk : unloadAct.Keeps InUseOk := fun _ _ s _ h => by
  refine .bind fun _ => .bind fun _ => .bind fun _ => .bind fun _ => .bind fun _ => .bind' fun c hc => ?_
  have found := charge_found (orRefuse_ok hc)
  split
  · exact .pure (h.unloadLoaded found ‹_› _)
  · exact .pure (h.of_library (unloadDried_uses h.keys.2 found ‹_› _) (writeTrace_library ..))
  · exact .error _

theorem retireChargeAct_inUseOk : retireChargeAct.Keeps InUseOk := fun _ _ _ _ h =>
  .bind fun _ => .bind' fun _ hc => .bind' fun _ hs => .bind fun _ => .pure
    (h.eraseCharge (orRefuse_ok hc) (by rw [eq_of_beq (require_ok hs)]; rfl) rfl rfl)

theorem skipStepRule_inUseOk : (kilnCommand skipStepRule).Keeps InUseOk :=
  kilnCommand_keeps fun k c x s t h hc _ ht => by
    unfold skipStepRule at ht
    split at ht <;> cases ht
    rename_i hs
    exact h.applyChange (kilnCharge_found hc) rfl (by rw [hs]; rfl) (fun _ => rfl) k x _ _

theorem stopRule_inUseOk : (kilnCommand stopRule).Keeps InUseOk :=
  kilnCommand_keeps fun k c x s t h hc _ ht => by
    unfold stopRule at ht
    split at ht <;> cases ht
    rename_i hs
    have held : usesSchedule c.state = true := by
      rcases (stopAccepts_iff c.state).1 hs with ⟨ph, e, _⟩ | ⟨ph, why, e⟩ <;> rw [e] <;> rfl
    exact h.applyChange (more := fun c => { c with flags := { c.flags with earlyStop := true } }) (kilnCharge_found hc) rfl
      held (fun _ => rfl) k x _ _

/-! ## Every command -/

theorem restarted_use (why : HoldReason) (c : Charge) : (c.restarted why).use = c.use := by
  cases hf : c.flags.htCertified <;> cases hs : c.state <;> simp [Charge.restarted, Charge.use, hf, hs, usesSchedule]

theorem RestartedCharges.uses {why : HoldReason} (h : RestartedCharges s t why) : t.uses = s.uses := by
  rw [State.uses, State.seen, h.charges]
  exact (List.map_map ..).trans (List.map_congr_left fun c _ => restarted_use why c)

theorem InUseOk.interrupted (h : InUseOk s) (hi : Interrupted s t) : InUseOk t := by
  rcases hi.charges with ⟨charges, _⟩ | ⟨why, restarted⟩
  · exact h.of_library (seen_of_charges charges) hi.library
  · exact h.of_library restarted.uses hi.library

theorem exec_inUseOk {i : Instr} (hs : InUseOk s) (h : exec i s = .next t) : InUseOk t := by
  have take {x : Port × Byte} (ht : takenBy i = some x) (ha : (actOf i).Keeps InUseOk) : InUseOk t :=
    take_keeps inUseOk_blockInv ht ha hs h
  have seen {x : Port × Byte} (ht : takenBy i = some x) (ha : (actOf i).Unseen Charge.use)
      (hl : mayChange i .library = false) : InUseOk t :=
    hs.of_library (take_seen use_kilnView ht ha hs.keys.2 h) (exec_blocks h .library hl)
  have event {f : State → State} (hf : (f s).uses = s.uses) (hl : mayChange i .library = false)
      (he : Machine.event f s = .next t) : InUseOk t :=
    hs.of_library (event_keeps (Inv := fun u => u.uses = s.uses) rfl (fun _ => hf) he) (exec_blocks h .library hl)
  cases hr : resetsPorts i with
  | true =>
    rcases exec_resets hr h with rfl | ⟨eye, rfl⟩ | hi
    · exact hs
    · exact reset_inUseOk.of_library rfl rfl
    · exact hs.interrupted hi
  | false =>
    cases i with
    | putSpecies => exact take rfl fun _ _ _ _ h => .bind fun _ => .bind fun _ => .pure (h.of_uses rfl rfl h.library)
    | deleteSpecies =>
      exact take rfl fun _ _ _ _ h =>
        .bind fun _ => .bind fun _ => .bind fun _ => .bind fun _ => .pure (h.of_uses rfl rfl h.library)
    | putSchedule => exact take rfl putScheduleAct_inUseOk
    | deleteSchedule => exact take rfl deleteScheduleAct_inUseOk
    | putGradeText =>
      refine take rfl fun _ _ _ _ h => .bind fun _ => .bind fun _ => .pure ?_
      dsimp only
      split
      · exact h
      · exact h.of_uses rfl rfl h.library
    | putLengthBands =>
      exact take rfl fun _ _ _ _ h => .bind fun _ => .bind fun _ => .pure (h.of_uses rfl rfl h.library)
    | putParameter =>
      refine take rfl fun p r s _ h y hy => ?_
      obtain ⟨schedules, inUse⟩ := putParameterAct_schedules p r s y hy
      have charges := (putParameterAct_within (P := fun b => match b with | .library => true | _ => false) rfl p r s y
        hy).blocks .charges rfl
      exact h.of_uses (seen_of_charges charges) inUse (schedules ▸ h.library)
    | defineCharge => exact take rfl defineChargeAct_inUseOk
    | setSamples => exact seen rfl (setSamplesAct_unseen use_kilnView) rfl
    | sampleWeights => exact seen rfl (sampleWeightsAct_unseen use_kilnView) rfl
    | load => exact take rfl loadAct_inUseOk
    | unload => exact take rfl unloadAct_inUseOk
    | retireCharge => exact take rfl retireChargeAct_inUseOk
    | start => exact seen rfl (startRule_unseen use_kilnView) rfl
    | hold => exact seen rfl (holdRule_unseen use_kilnView) rfl
    | resume => exact seen rfl (resumeRule_unseen use_kilnView) rfl
    | skipStep => exact take rfl skipStepRule_inUseOk
    | stop => exact take rfl stopRule_inUseOk
    | kilnMinuteExpiry k => exact event_keeps (f := fun s => s.kilnMinute k) hs (fun _ => hs.kilnMinute k) h
    | openRun => exact seen rfl (openRunAct_unseen use_lineView) rfl
    | addSource => exact seen rfl (addSourceAct_unseen use_lineView) rfl
    | advanceSource => exact seen rfl (advanceSourceAct_unseen use_lineView) rfl
    | closeRun => exact seen rfl (closeRunAct_unseen use_lineView) rfl
    | abortRun => exact seen rfl (abortRunAct_unseen use_lineView) rfl
    | boardGrade p lbsy => exact seen rfl (boardGradeAct_unseen use_lineView use_bookView lbsy) rfl
    | convertLot => exact take rfl convertLotAct_inUseOk
    | releasePack => exact seen rfl (releasePackAct_unseen use_bookView) rfl
    | eyeEdge => exact event (eyeRises_seen use_lineView s) rfl h
    | meterFrame b e =>
      exact event (f := fun s => s.fifthByte ⟨b, e⟩) (fifthByte_seen use_kilnView use_lineView hs.keys.2 _) rfl h
    | meterIdleTimeout => exact event (f := State.meterIdle) (meterIdle_seen use_kilnView use_lineView hs.keys.2) rfl h
    | restart | powerOnReset | coldStart | warmStart | mainPowerFail => cases hr
    | _ => exact hs.of_library (seen_of_charges (exec_blocks h .charges rfl)) (exec_blocks h .library rfl)

end

end Sys2Proof.Machine

end

section
/-! SUPPORT. References (R66) and boards in flight (R64, R120), each as a relation between the charge entries and lists of
charge ids: what an addition, a change and a removal keep of them. -/

namespace Sys2Proof.Machine

/-! ## References -/

/-- Every charge's reference count is the number of the lists that name it, and the lists name present charges, each once. -/
structure RefCounts (entries : List Charge) (lists : List (List Nat)) : Prop where
  counts : ∀ c ∈ entries, c.refs = lists.countP fun l => decide (c.id ∈ l)
  present : ∀ l ∈ lists, ∀ id ∈ l, ∃ c ∈ entries, c.id = id
  once : ∀ l ∈ lists, l.Nodup

/-- A charge as the reference counts see it. -/
def Charge.tie (c : Charge) : Nat × Nat := (c.id, c.refs)

section

variable {entries entries' : List Charge} {lists lists' : List (List Nat)} {l : List Nat} {id : Nat} {c : Charge}

theorem RefCounts.perm (h : RefCounts entries lists) (hp : lists.Perm lists') : RefCounts entries lists' :=
  ⟨fun c hc => (h.counts c hc).trans (hp.countP_eq _), fun l hl => h.present l (hp.mem_iff.2 hl),
    fun l hl => h.once l (hp.mem_iff.2 hl)⟩

theorem RefCounts.of_tie (h : RefCounts entries lists) (hv : entries'.map Charge.tie = entries.map Charge.tie) :
    RefCounts entries' lists where
  counts := fun c hc => by
    obtain ⟨d, hd, same⟩ := exists_mem_of_map_eq hv hc
    obtain ⟨hid, refs⟩ := Prod.ext_iff.1 same
    exact refs.symm.trans ((h.counts d hd).trans (by rw [show d.id = c.id from hid]))
  present := fun l hl id hid => by
    obtain ⟨d, hd, e⟩ := h.present l hl id hid
    obtain ⟨c, hc, same⟩ := exists_mem_of_map_eq hv.symm hd
    exact ⟨c, hc, (congrArg Prod.fst same).trans e⟩
  once := h.once

/-- Each list is named or not, and only the named one counts. -/
theorem countP_cons_mem (id : Nat) (l : List Nat) (lists : List (List Nat)) :
    ((l :: lists).countP fun l => decide (id ∈ l)) = (lists.countP fun l => decide (id ∈ l)) + if id ∈ l then 1 else 0 := by
  by_cases h : id ∈ l <;> simp [h]

theorem refCounts_cons_nil : RefCounts entries ([] :: lists) ↔ RefCounts entries lists := by
  constructor
  · rintro ⟨counts, present, once⟩
    exact ⟨fun c hc => by simpa using counts c hc, fun l hl => present l (List.mem_cons_of_mem _ hl),
      fun l hl => once l (List.mem_cons_of_mem _ hl)⟩
  · rintro ⟨counts, present, once⟩
    exact ⟨fun c hc => by simpa using counts c hc, List.forall_mem_cons.2 ⟨nofun, present⟩,
      List.forall_mem_cons.2 ⟨List.nodup_nil, once⟩⟩

/-- A change of one charge that keeps its id keeps every charge present. -/
theorem exists_keyModify {f : Charge → Charge} (hf : ∀ c, (f c).id = c.id) (k : Nat) (h : ∃ c ∈ entries, c.id = id) :
    ∃ c ∈ keyModify Charge.id k f entries, c.id = id := by
  obtain ⟨c, hc, e⟩ := h
  refine ⟨_, List.mem_map_of_mem hc, ?_⟩
  split
  · rw [hf, e]
  · exact e

/-- A list names one more charge, whose reference count rises (R145, R158). -/
theorem RefCounts.join (h : RefCounts entries (l :: lists)) (hl : id ∉ l) (hp : ∃ c ∈ entries, c.id = id) :
    RefCounts (keyModify Charge.id id (fun c => { c with refs := c.refs + 1 }) entries) ((l ++ [id]) :: lists) := by
  obtain ⟨present, rest⟩ := List.forall_mem_cons.1 h.present
  obtain ⟨once, apart⟩ := List.forall_mem_cons.1 h.once
  have keep {n : Nat} := exists_keyModify (entries := entries) (id := n) (f := fun c => { c with refs := c.refs + 1 })
    (fun _ => rfl) id
  refine ⟨fun c hc => ?_, List.forall_mem_cons.2 ⟨fun n hn => ?_, fun m hm n hn => keep (rest m hm n hn)⟩,
    List.forall_mem_cons.2 ⟨?_, apart⟩⟩
  · rcases mem_keyModify hc with ⟨hc, hne⟩ | ⟨d, hd, rfl, rfl⟩
    · have counted := h.counts c hc
      rw [countP_cons_mem] at counted ⊢
      simpa [hne] using counted
    · have counted := h.counts d hd
      rw [countP_cons_mem, if_neg hl] at counted
      rw [countP_cons_mem, if_pos (by simp), counted]
  · rcases List.mem_append.1 hn with hn | hn
    · exact keep (present n hn)
    · rw [List.mem_singleton.1 hn]
      exact keep hp
  · exact List.nodup_append'.2 ⟨once, List.nodup_singleton _, by simpa using hl⟩

/-- A list no longer names its first charge, whose reference count falls. -/
theorem RefCounts.drop (h : RefCounts entries ((id :: l) :: lists)) :
    RefCounts (keyModify Charge.id id (fun c => { c with refs := c.refs - 1 }) entries) (l :: lists) := by
  obtain ⟨present, rest⟩ := List.forall_mem_cons.1 h.present
  obtain ⟨once, apart⟩ := List.forall_mem_cons.1 h.once
  obtain ⟨hl, later⟩ := List.nodup_cons.1 once
  have keep {n : Nat} := exists_keyModify (entries := entries) (id := n) (f := fun c => { c with refs := c.refs - 1 })
    (fun _ => rfl) id
  refine ⟨fun c hc => ?_, List.forall_mem_cons.2 ⟨fun n hn => keep (present n (List.mem_cons_of_mem _ hn)),
    fun m hm n hn => keep (rest m hm n hn)⟩, List.forall_mem_cons.2 ⟨later, apart⟩⟩
  rcases mem_keyModify hc with ⟨hc, hne⟩ | ⟨d, hd, rfl, rfl⟩
  · have counted := h.counts c hc
    rw [countP_cons_mem] at counted ⊢
    simpa [hne] using counted
  · have counted := h.counts d hd
    rw [countP_cons_mem, if_pos (List.mem_cons_self ..)] at counted
    rw [countP_cons_mem, if_neg hl]
    dsimp only
    omega

/-- The entries after every charge of a list has lost a reference (R148, R165). -/
def withoutRefs (ids : List Nat) (entries : List Charge) : List Charge :=
  ids.foldl (fun e id => keyModify Charge.id id (fun c => { c with refs := c.refs - 1 }) e) entries

theorem RefCounts.dropAll : ∀ (l : List Nat) (entries : List Charge), RefCounts entries (l :: lists) →
    RefCounts (withoutRefs l entries) lists
  | [], _, h => refCounts_cons_nil.1 h
  | _ :: l, _, h => RefCounts.dropAll l _ h.drop

/-- A new charge that nothing references. -/
theorem RefCounts.add (h : RefCounts entries lists) (hn : ∀ d ∈ entries, d.id ≠ c.id) (hr : c.refs = 0)
    (hp : entries'.Perm (c :: entries)) : RefCounts entries' lists where
  counts := fun d hd => by
    rcases List.mem_cons.1 (hp.mem_iff.1 hd) with rfl | hd
    · rw [hr, eq_comm, List.countP_eq_zero]
      intro l hl hid
      obtain ⟨e, he, eq⟩ := h.present l hl d.id (of_decide_eq_true hid)
      exact hn e he eq
    · exact h.counts d hd
  present := fun l hl id hid => by
    obtain ⟨d, hd, e⟩ := h.present l hl id hid
    exact ⟨d, hp.mem_iff.2 (List.mem_cons_of_mem _ hd), e⟩
  once := h.once

/-- A charge that nothing references is erased. -/
theorem RefCounts.erase (h : RefCounts entries lists) (hr : ∀ c ∈ entries, c.id = id → c.refs = 0) :
    RefCounts (keyErase Charge.id id entries) lists where
  counts := fun c hc => h.counts c (mem_keyErase.1 hc).1
  present := fun l hl n hn => by
    obtain ⟨c, hc, e⟩ := h.present l hl n hn
    refine ⟨c, mem_keyErase.2 ⟨hc, fun hid => ?_⟩, e⟩
    have none := h.counts c hc
    rw [hr c hc hid, eq_comm, List.countP_eq_zero] at none
    exact none l hl (by simpa [e] using hn)
  once := h.once

end

/-! ## Boards in flight -/

/-- A charge that is not PLANING has no board in flight; a charge's in-flight count is the number of the boards aloft that are
its own; and the sources and the boards aloft are of present PLANING charges (R64, R120). -/
structure FlightOk (entries : List Charge) (sources aloft : List Nat) : Prop where
  grounded : ∀ c ∈ entries, c.state ≠ .planing → c.stats.inFlight = 0
  flight : ∀ c ∈ entries, c.stats.inFlight = aloft.count c.id
  listed : ∀ id, id ∈ sources ∨ id ∈ aloft → ∃ c ∈ entries, c.id = id ∧ c.state = .planing

/-- A charge as the tracker's boards see it. -/
def Charge.wing (c : Charge) : Nat × Nat × Bool := (c.id, c.stats.inFlight, c.state == .planing)

section

variable {entries entries' : List Charge} {sources sources' aloft aloft' : List Nat} {id : Nat} {c : Charge}

theorem FlightOk.of_wing (h : FlightOk entries sources aloft) (hv : entries'.map Charge.wing = entries.map Charge.wing) :
    FlightOk entries' sources aloft := by
  have wing {c d : Charge} (same : d.wing = c.wing) :
      d.id = c.id ∧ d.stats.inFlight = c.stats.inFlight ∧ (d.state = .planing ↔ c.state = .planing) := by
    obtain ⟨hid, count, planing⟩ := by simpa only [Charge.wing, Prod.ext_iff] using same
    exact ⟨hid, count, by rw [← beq_iff_eq, planing, beq_iff_eq]⟩
  refine ⟨fun c hc hs => ?_, fun c hc => ?_, fun id hid => ?_⟩
  · obtain ⟨d, hd, same⟩ := exists_mem_of_map_eq hv hc
    obtain ⟨_, count, planing⟩ := wing same
    exact count ▸ h.grounded d hd (mt planing.1 hs)
  · obtain ⟨d, hd, same⟩ := exists_mem_of_map_eq hv hc
    obtain ⟨hid, count, _⟩ := wing same
    rw [← count, ← hid]
    exact h.flight d hd
  · obtain ⟨d, hd, hid, hs⟩ := h.listed id hid
    obtain ⟨c, hc, same⟩ := exists_mem_of_map_eq hv.symm hd
    obtain ⟨e, _, planing⟩ := wing same
    exact ⟨c, hc, e.trans hid, planing.2 hs⟩

/-- Boards in another order, and fewer sources. -/
theorem FlightOk.mono (h : FlightOk entries sources aloft) (hs : sources' ⊆ sources) (hp : aloft'.Perm aloft) :
    FlightOk entries sources' aloft' :=
  ⟨h.grounded, fun c hc => (h.flight c hc).trans (hp.count_eq _).symm,
    fun id hid => h.listed id (hid.imp (@hs id) hp.mem_iff.1)⟩

/-- A charge that changes so that it stays PLANING or is nobody's. -/
theorem FlightOk.listed_modify {f : Charge → Charge} (h : ∃ c ∈ entries, c.id = id ∧ c.state = .planing) (k : Nat)
    (hid : ∀ c, (f c).id = c.id)
    (hf : ∀ c ∈ entries, c.id = k → c.id = id → c.state = .planing → (f c).state = .planing) :
    ∃ c ∈ keyModify Charge.id k f entries, c.id = id ∧ c.state = .planing := by
  obtain ⟨c, hc, e, hs⟩ := h
  refine ⟨_, List.mem_map_of_mem hc, ?_⟩
  split
  · exact ⟨(hid c).trans e, hf c hc ‹_› e hs⟩
  · exact ⟨e, hs⟩

/-- A board of a charge leaves (R120). -/
theorem FlightOk.land (h : FlightOk entries sources (id :: aloft)) :
    FlightOk (keyModify Charge.id id Charge.land entries) sources aloft where
  grounded := fun c hc hs => by
    rcases mem_keyModify hc with ⟨hc, _⟩ | ⟨d, hd, _, rfl⟩
    · exact h.grounded c hc hs
    · have none := h.grounded d hd hs
      simp [Charge.land, none]
  flight := fun c hc => by
    rcases mem_keyModify hc with ⟨hc, hne⟩ | ⟨d, hd, rfl, rfl⟩
    · rw [h.flight c hc, List.count_cons_of_ne (Ne.symm hne)]
    · have count := h.flight d hd
      rw [List.count_cons_self] at count
      simp [Charge.land, count]
  listed := fun n hn => FlightOk.listed_modify (h.listed n (hn.imp (fun h => h) (List.mem_cons_of_mem _))) id (fun _ => rfl)
    fun _ _ _ _ hs => hs

/-- A board of a source joins the queue (R127). -/
theorem FlightOk.fly (h : FlightOk entries sources aloft) (hid : id ∈ sources)
    (hu : ∀ c ∈ entries, c.id = id → c.state = .planing) :
    FlightOk (keyModify Charge.id id Charge.fly entries) sources (id :: aloft) where
  grounded := fun c hc hs => by
    rcases mem_keyModify hc with ⟨hc, _⟩ | ⟨d, hd, hk, rfl⟩
    · exact h.grounded c hc hs
    · exact absurd (hu d hd hk) hs
  flight := fun c hc => by
    rcases mem_keyModify hc with ⟨hc, hne⟩ | ⟨d, hd, rfl, rfl⟩
    · rw [h.flight c hc, List.count_cons_of_ne (Ne.symm hne)]
    · show d.stats.inFlight + 1 = List.count d.id _
      rw [List.count_cons_self, h.flight d hd]
  listed := fun n hn => FlightOk.listed_modify (h.listed n (by
    rcases hn with hn | hn
    · exact .inl hn
    · rcases List.mem_cons.1 hn with rfl | hn
      · exact .inl hid
      · exact .inr hn)) id (fun _ => rfl) fun _ _ _ _ hs => hs

/-- A charge that is unlisted and has no board aloft settles (R64, R120). -/
theorem FlightOk.settle (h : FlightOk entries sources aloft) (id : Nat) :
    FlightOk (keyModify Charge.id id (Charge.settle (sources.contains id)) entries) sources aloft := by
  have same (c : Charge) : (c.settle (sources.contains id)).id = c.id ∧
      (c.settle (sources.contains id)).stats = c.stats := by
    unfold Charge.settle
    split <;> exact ⟨rfl, rfl⟩
  refine ⟨fun c hc hs => ?_, fun c hc => ?_, fun n hn => FlightOk.listed_modify (h.listed n hn) id
    (fun c => (same c).1) fun c hc hk e hs => ?_⟩
  · rcases mem_keyModify hc with ⟨hc, _⟩ | ⟨d, hd, _, rfl⟩
    · exact h.grounded c hc hs
    · rw [(same d).2]
      unfold Charge.settle at hs
      split at hs
      · rename_i settled
        exact settled.2.1
      · exact h.grounded d hd hs
  · rcases mem_keyModify hc with ⟨hc, _⟩ | ⟨d, hd, _, rfl⟩
    · exact h.flight c hc
    · rw [(same d).1, (same d).2]
      exact h.flight d hd
  · have stays : ¬(c.state = .planing ∧ c.stats.inFlight = 0 ∧ sources.contains id = false) := by
      rintro ⟨_, none, unlisted⟩
      rw [h.flight c hc, List.count_eq_zero] at none
      rcases hn with hn | hn
      · exact absurd (hk ▸ e ▸ hn) (by simpa using unlisted)
      · exact none (e ▸ hn)
    rw [Charge.settle, if_neg stays]
    exact hs

/-- A charge that was not PLANING becomes a source (R121, R122). -/
theorem FlightOk.plane {f : Charge → Charge} (h : FlightOk entries sources aloft) (hp : ∃ c ∈ entries, c.id = id)
    (hn : ∀ c ∈ entries, c.id = id → c.state ≠ .planing)
    (hf : ∀ c ∈ entries, c.id = id → (f c).id = c.id ∧ (f c).state = .planing ∧ (f c).stats.inFlight = 0) :
    FlightOk (keyModify Charge.id id f entries) (sources ++ [id]) aloft where
  grounded := fun c hc hs => by
    rcases mem_keyModify hc with ⟨hc, _⟩ | ⟨d, hd, hk, rfl⟩
    · exact h.grounded c hc hs
    · exact (hf d hd hk).2.2
  flight := fun c hc => by
    rcases mem_keyModify hc with ⟨hc, _⟩ | ⟨d, hd, hk, rfl⟩
    · exact h.flight c hc
    · obtain ⟨hid, _, none⟩ := hf d hd hk
      rw [none, hid, ← h.flight d hd, h.grounded d hd (hn d hd hk)]
  listed := fun n hn' => by
    by_cases e : n = id
    · obtain ⟨c, hc, hk⟩ := hp
      obtain ⟨hid, planing, _⟩ := hf c hc hk
      exact ⟨f c, List.mem_map.2 ⟨c, hc, if_pos hk⟩, by rw [hid, hk, e], planing⟩
    · have old : n ∈ sources ∨ n ∈ aloft := by simpa [e] using hn'
      obtain ⟨c, hc, hk, planing⟩ := h.listed n old
      exact ⟨c, List.mem_map.2 ⟨c, hc, if_neg fun hc => e (hk ▸ hc)⟩, hk, planing⟩

/-- A charge that is no PLANING one joins or leaves the table. -/
theorem FlightOk.add (h : FlightOk entries sources aloft) (hn : ∀ d ∈ entries, d.id ≠ c.id) (h0 : c.stats.inFlight = 0)
    (hp : entries'.Perm (c :: entries)) : FlightOk entries' sources aloft where
  grounded := fun d hd hs => by
    rcases List.mem_cons.1 (hp.mem_iff.1 hd) with rfl | hd
    · exact h0
    · exact h.grounded d hd hs
  flight := fun d hd => by
    rcases List.mem_cons.1 (hp.mem_iff.1 hd) with rfl | hd
    · rw [h0, eq_comm, List.count_eq_zero]
      intro hid
      obtain ⟨e, he, eq, _⟩ := h.listed d.id (.inr hid)
      exact hn e he eq
    · exact h.flight d hd
  listed := fun id hid => by
    obtain ⟨d, hd, rest⟩ := h.listed id hid
    exact ⟨d, hp.mem_iff.2 (List.mem_cons_of_mem _ hd), rest⟩

theorem FlightOk.erase (h : FlightOk entries sources aloft) (hs : ∀ c ∈ entries, c.id = id → c.state ≠ .planing) :
    FlightOk (keyErase Charge.id id entries) sources aloft where
  grounded := fun c hc => h.grounded c (mem_keyErase.1 hc).1
  flight := fun c hc => h.flight c (mem_keyErase.1 hc).1
  listed := fun n hn => by
    obtain ⟨c, hc, e, planing⟩ := h.listed n hn
    exact ⟨c, mem_keyErase.2 ⟨hc, fun hid => hs c hc hid planing⟩, e, planing⟩

/-- No board is aloft exactly where every in-flight count is 0. -/
theorem flightOk_empty : FlightOk entries [] [] ↔ ∀ c ∈ entries, c.stats.inFlight = 0 := by
  constructor
  · exact fun h c hc => by simpa using h.flight c hc
  · exact fun h => ⟨fun c hc _ => h c hc, fun c hc => by simpa using h c hc, fun id hid => by simp at hid⟩

end

end Sys2Proof.Machine

end

section
/-! SUPPORT. The pack records and redry lots as lists of charges (R66): what the chutes, the releases and the conversions
leave of the reference counts. -/

namespace Sys2Proof.Machine

/-- The charges that a record's contributors name. -/
def namedBy (cs : List Contributor) : List Nat := cs.map Contributor.charge

/-- The lists of charges that the pack records and the redry lots hold. -/
def State.records (s : State) : List (List Nat) :=
  s.packs.packs.map (fun q => namedBy q.contributors) ++ s.lots.lots.map fun x => namedBy x.contributors

/-- What is seen of a lot by the charges it lists. -/
def Lot.listing (x : Lot) : Nat × List Contributor := (x.number, x.contributors)

/-- The redry lots as the charges see them. -/
def State.lotLists (s : State) : List (Nat × List Contributor) := s.lots.lots.map Lot.listing

/-- The reference counts stand, and the tables of records are in key order. -/
structure Referenced (s : State) : Prop where
  refs : RefCounts s.charges.entries s.records
  packs : Rising Pack.id s.packs.packs
  lots : Rising Lot.number s.lots.lots

theorem tie_kilnView : KilnView Charge.tie where
  id := ⟨Prod.fst, fun _ => rfl⟩
  samples := fun _ _ => rfl
  flags := fun _ _ => rfl
  heat := fun _ _ => rfl
  working := fun _ _ _ _ => rfl

theorem tie_lineView : LineView Charge.tie where
  stats := fun _ _ => rfl
  flags := fun _ _ => rfl
  idle := fun _ _ _ _ => rfl

section

variable {s t : State} {entries : List Charge} {lists : List (List Nat)} {cs : List Contributor} {id : Nat}

/-! ## What the reference counts look at -/

theorem records_of_lists (hp : t.packLists = s.packLists) (hl : t.lotLists = s.lotLists) : t.records = s.records := by
  have records (u : State) :
      u.records = u.packLists.map (fun q => namedBy q.2) ++ u.lotLists.map fun x => namedBy x.2 := by
    rw [State.packLists, State.lotLists, List.map_map, List.map_map]; rfl
  rw [records t, records s, hp, hl]

/-- An ordered table whose keys stand. -/
theorem rising_of_map {α β : Type} {key : α → Nat} {v : α → β} {g : β → Nat} (hv : ∀ a, g (v a) = key a) {l m : List α}
    (h : Rising key l) (hm : m.map v = l.map v) : Rising key m := by
  have keys (l : List α) : (l.map v).map g = l.map key := (List.map_map ..).trans (List.map_congr_left fun a _ => hv a)
  have rising : (l.map key).Pairwise (· < ·) := List.pairwise_map.2 h
  rw [← keys l, ← hm, keys m] at rising
  exact List.pairwise_map.1 rising

theorem Referenced.of_view (h : Referenced s) (ht : t.seen Charge.tie = s.seen Charge.tie) (hp : t.packLists = s.packLists)
    (hl : t.lotLists = s.lotLists) : Referenced t :=
  ⟨records_of_lists hp hl ▸ h.refs.of_tie ht, rising_of_map (v := Pack.listing) (g := Prod.fst) (fun _ => rfl) h.packs hp,
    rising_of_map (v := Lot.listing) (g := Prod.fst) (fun _ => rfl) h.lots hl⟩

/-- Records that stand, and charges seen as they were. -/
theorem Referenced.of_tie (h : Referenced s) (ht : t.seen Charge.tie = s.seen Charge.tie) (hp : t.packs = s.packs)
    (hl : t.lots = s.lots) : Referenced t :=
  h.of_view ht (by rw [State.packLists, hp]; rfl) (by rw [State.lotLists, hl]; rfl)

/-! ## A board joins a record (R145, R158) -/

theorem lists_iff : Machine.lists cs id = true ↔ id ∈ namedBy cs := by
  simp [Machine.lists, namedBy]

/-- A join names the charge where it lists it anew, and no other charge. -/
theorem joinPieces_named (cs : List Contributor) (other id : Nat) :
    namedBy (joinPieces cs other id).1 = if joinLists cs id then namedBy cs ++ [id] else namedBy cs := by
  unfold joinPieces joinLists
  cases Machine.lists cs id with
  | true =>
    have same : namedBy (cs.map fun c => if c.charge = id then { c with pieces := c.pieces + 1 } else c) = namedBy cs :=
      (List.map_map ..).trans (List.map_congr_left fun c _ => by dsimp only [Function.comp_apply]; split <;> rfl)
    simpa using same
  | false =>
    by_cases room : cs.length < Config.contributorEntries <;> simp [room, namedBy]

/-- The entries after a board of a charge has joined a record: a charge that it lists anew is referenced. -/
def referenced (cs : List Contributor) (id : Nat) (entries : List Charge) : List Charge :=
  if joinLists cs id then keyModify Charge.id id (fun c => { c with refs := c.refs + 1 }) entries else entries

theorem RefCounts.joinPieces (h : RefCounts entries (namedBy cs :: lists)) (hp : ∃ c ∈ entries, c.id = id) (other : Nat) :
    RefCounts (referenced cs id entries) (namedBy (joinPieces cs other id).1 :: lists) := by
  rw [joinPieces_named, referenced]
  split
  · rename_i anew
    have unlisted : id ∉ namedBy cs := by
      rw [← lists_iff]
      simp only [joinLists, Bool.and_eq_true, Bool.not_eq_true'] at anew
      simp [anew.1]
    exact h.join unlisted hp
  · exact h

/-! ## Lots -/

theorem joinLot_entries (s : State) (x : Lot) (charge volume : Nat) :
    (s.joinLot x charge volume).charges.entries = referenced x.contributors charge s.charges.entries := by
  unfold State.joinLot referenced
  dsimp only
  split <;> rfl

theorem joinLot_lots (s : State) (x : Lot) (charge volume : Nat) :
    (s.joinLot x charge volume).lots.lots = keyPut Lot.number (x.join charge volume) s.lots.lots := by
  unfold State.joinLot
  dsimp only
  split <;> rfl

theorem joinLot_packs (s : State) (x : Lot) (charge volume : Nat) : (s.joinLot x charge volume).packs = s.packs := by
  unfold State.joinLot
  dsimp only
  split <;> rfl

/-- The records, the lot under number `n` first. -/
theorem records_perm_lot {x : Lot} {n : Nat} (h : s.lots.lots.Perm (x :: keyErase Lot.number n t.lots.lots))
    (hp : s.packs = t.packs) : s.records.Perm (namedBy x.contributors ::
      (t.packs.packs.map (fun q => namedBy q.contributors) ++
        (keyErase Lot.number n t.lots.lots).map fun x => namedBy x.contributors)) := by
  rw [State.records, hp]
  exact ((h.map _).append_left _).trans List.perm_middle

/-- A board joins a lot of the table, or a new one under a number of no lot. -/
theorem Referenced.joinLot (h : Referenced s) {x : Lot}
    (hx : x ∈ s.lots.lots ∨ (∀ y ∈ s.lots.lots, y.number ≠ x.number) ∧ x.contributors = [])
    (hp : ∃ c ∈ s.charges.entries, c.id = id) (volume : Nat) : Referenced (s.joinLot x id volume) := by
  have found : RefCounts s.charges.entries (namedBy x.contributors ::
      (s.packs.packs.map (fun q => namedBy q.contributors) ++
        (keyErase Lot.number x.number s.lots.lots).map fun x => namedBy x.contributors)) := by
    rcases hx with hx | ⟨absent, empty⟩
    · exact h.refs.perm (records_perm_lot (h.lots.perm_keyErase hx) rfl)
    · rw [empty, keyErase_absent absent]
      exact refCounts_cons_nil.2 h.refs
  refine ⟨?_, by rw [joinLot_packs]; exact h.packs, by rw [joinLot_lots]; exact rising_keyPut _ h.lots⟩
  have put := h.lots.keyPut_perm (x.join id volume)
  rw [← joinLot_lots] at put
  rw [joinLot_entries]
  exact (found.joinPieces hp x.other).perm (records_perm_lot (t := s) put (joinLot_packs ..)).symm

theorem nextLotNumber_free (h : s.lots.lots.length < Config.lotEntries) : ∀ y ∈ s.lots.lots, y.number ≠ s.nextLotNumber := by
  intro y hy e
  have room : s.lots.lots.length < 4 := h
  have free : s.nextLotNumber ∉ s.lots.lots.map Lot.number := newId_not_mem (by rw [List.length_map]; omega) _
  exact free (e ▸ List.mem_map_of_mem hy)

theorem Referenced.handToLot (h : Referenced s) (hp : ∃ c ∈ s.charges.entries, c.id = id) (sp th volume : Nat) :
    Referenced (s.handToLot sp th id volume).1 := by
  unfold State.handToLot
  split
  · rename_i x hx
    exact h.joinLot (.inl (List.mem_of_find?_eq_some hx)) hp volume
  · split
    · rename_i room
      exact Referenced.joinLot (s := s.withLots { s.lots with last := s.nextLotNumber })
        (x := openedLot s.nextLotNumber sp th) ⟨h.refs, h.packs, h.lots⟩ (.inr ⟨nextLotNumber_free room, rfl⟩) hp volume
    · exact h.of_tie rfl rfl rfl

/-! ## Packs -/

/-- The closing of packs and the label engine leave the charges and the lists alone. -/
theorem closePack_packLists (s : State) (lbsy : Bool) (id : Nat) (cause : CloseCause) :
    (s.closePack lbsy id cause).packLists = s.packLists := by
  have closed := modifyPack_packLists (f := fun q => q.closed cause s.clock.stamp) (fun _ => rfl) s id
  unfold State.closePack State.offerPack
  dsimp only
  split
  · exact (queuePack_packLists _ lbsy id).trans closed
  · exact closed

theorem Referenced.closePack (h : Referenced s) (lbsy : Bool) (id : Nat) (cause : CloseCause) :
    Referenced (s.closePack lbsy id cause) :=
  h.of_view (closePack_seen ..) (closePack_packLists ..)
    (congrArg (fun x : LotTable => x.lots.map Lot.listing) (((Within.refl s).closePack
      (P := fun b => match b with | .packs | .label => true | _ => false) rfl rfl lbsy id cause).blocks .lots rfl))

theorem boardAdded_entries (s : State) (q : Pack) (b : HandedBoard) :
    (s.boardAdded q b).charges.entries = referenced q.contributors b.charge s.charges.entries := by
  unfold State.boardAdded referenced
  split <;> rfl

theorem boardAdded_packs (s : State) (q : Pack) (b : HandedBoard) :
    (s.boardAdded q b).packs.packs = keyModify Pack.id q.id (fun _ => q.add b) s.packs.packs := by
  unfold State.boardAdded
  split <;> rfl

theorem boardAdded_lots (s : State) (q : Pack) (b : HandedBoard) : (s.boardAdded q b).lots = s.lots := by
  unfold State.boardAdded
  split <;> rfl

/-- A board changes a pack's lists as it joins, and not its id. -/
theorem add_listing (q : Pack) (b : HandedBoard) :
    (q.add b).listing = (q.id, (joinPieces q.contributors q.other b.charge).1) := by
  unfold Pack.add Pack.meter
  cases b.reading <;> rfl

/-- The records, the pack under id `n` first. -/
theorem records_perm_pack {q : Pack} {n : Nat} (h : s.packs.packs.Perm (q :: keyErase Pack.id n t.packs.packs))
    (hl : s.lots = t.lots) : s.records.Perm (namedBy q.contributors ::
      ((keyErase Pack.id n t.packs.packs).map (fun q => namedBy q.contributors) ++
        t.lots.lots.map fun x => namedBy x.contributors)) := by
  rw [State.records, hl]
  exact (h.map _).append_right _

theorem Referenced.boardAdded (h : Referenced s) {q : Pack} (hq : q ∈ s.packs.packs) {b : HandedBoard}
    (hp : ∃ c ∈ s.charges.entries, c.id = b.charge) : Referenced (s.boardAdded q b) := by
  have id_eq : (q.add b).id = q.id := congrArg Prod.fst (add_listing q b)
  have named : (q.add b).contributors = (joinPieces q.contributors q.other b.charge).1 := congrArg Prod.snd (add_listing q b)
  refine ⟨?_, ?_, by rw [boardAdded_lots]; exact h.lots⟩
  · have found := h.refs.perm (records_perm_pack (h.packs.perm_keyErase hq) rfl)
    have changed := h.packs.keyModify_perm (fun _ => q.add b) hq
    rw [← boardAdded_packs] at changed
    have records := records_perm_pack (t := s) changed (boardAdded_lots ..)
    rw [named] at records
    rw [boardAdded_entries]
    exact (found.joinPieces hp q.other).perm records.symm
  · rw [boardAdded_packs]
    exact rising_keyModify q.id (fun _ _ => id_eq) h.packs

theorem Referenced.addBoard (h : Referenced s) {q : Pack} (hq : q ∈ s.packs.packs) {b : HandedBoard}
    (hp : ∃ c ∈ s.charges.entries, c.id = b.charge) (lbsy : Bool) : Referenced (s.addBoard lbsy q b) := by
  rw [addBoard_eq]
  split
  · exact (h.boardAdded hq hp).closePack lbsy q.id _
  · exact h.boardAdded hq hp

theorem nextPackId_free (h : s.packs.packs.length < Config.packEntries) : ∀ q ∈ s.packs.packs, q.id ≠ s.nextPackId := by
  intro q hq e
  have room : s.packs.packs.length < 64 := h
  have free : s.nextPackId ∉ s.packs.packs.map Pack.id := newId_not_mem (by rw [List.length_map]; omega) _
  exact free (e ▸ List.mem_map_of_mem hq)

theorem Referenced.openForBoard (h : Referenced s) {b : HandedBoard} (hp : ∃ c ∈ s.charges.entries, c.id = b.charge)
    (lbsy : Bool) (bin : Nat) : Referenced (s.openForBoard lbsy bin b).1 := by
  unfold State.openForBoard
  split
  · rename_i room
    have put := Rising.keyPut_perm_absent (a := openedPack s.nextPackId bin b.key s.clock.stamp) h.packs
      (nextPackId_free room)
    have opened : Referenced (s.withPacks { s.packs with
        packs := keyPut Pack.id (openedPack s.nextPackId bin b.key s.clock.stamp) s.packs.packs
        lastId := s.nextPackId }) :=
      ⟨(refCounts_cons_nil.2 h.refs).perm ((put.map fun q => namedBy q.contributors).append_right _).symm,
        rising_keyPut _ h.packs, h.lots⟩
    exact opened.addBoard (put.mem_iff.2 (List.mem_cons_self ..)) hp lbsy
  · unfold State.refuseBoard
    split
    · exact h
    · exact h.of_view rfl rfl rfl

theorem Referenced.handToBin (h : Referenced s) {b : HandedBoard} (hp : ∃ c ∈ s.charges.entries, c.id = b.charge)
    (lbsy : Bool) (bin : Nat) : Referenced (s.handToBin lbsy bin b).1 := by
  unfold State.handToBin
  split
  · rename_i q hq
    split
    · exact h.addBoard (List.mem_of_find?_eq_some hq) hp lbsy
    · refine (h.closePack lbsy q.id .keyChange).openForBoard ?_ lbsy bin
      have same : (s.closePack lbsy q.id .keyChange).charges.entries = s.charges.entries :=
        (List.map_id _).symm.trans ((closePack_seen (v := id) ..).trans (List.map_id _))
      rwa [same]
  · exact h.openForBoard hp lbsy bin

theorem Referenced.sortBoard (h : Referenced s) {b : Board} (hp : ∃ c ∈ s.charges.entries, c.id = b.charge) (lbsy : Bool)
    (n : Run) (g : GradeReport) : Referenced (s.sortBoard lbsy n b g).1 := by
  rcases sortBoard_cases s lbsy n b g with e | ⟨sp, th, volume, e⟩ | ⟨bin, x, hx, e⟩ <;> rw [e]
  · exact h
  · exact h.handToLot hp sp th volume
  · exact h.handToBin (by rwa [hx]) lbsy bin

/-! ## Records leave the tables (R148, R165) -/

theorem dropRefs_entries : ∀ (cs : List Contributor) (s : State),
    (s.dropRefs cs).charges.entries = withoutRefs (namedBy cs) s.charges.entries
  | [], _ => rfl
  | c :: cs, s => dropRefs_entries cs (s.dropRef c.charge)

theorem Referenced.releasePack (h : Referenced s) {q : Pack} (hq : s.pack id = some q)
    (hp : t.packs.packs = keyErase Pack.id id s.packs.packs)
    (hc : t.charges.entries = (s.dropRefs q.contributors).charges.entries) (hl : t.lots = s.lots) : Referenced t := by
  have perm := h.packs.perm_keyErase (keyFind_mem hq)
  rw [keyFind_key hq] at perm
  refine ⟨?_, by rw [hp]; exact rising_keyErase id h.packs, hl ▸ h.lots⟩
  rw [hc, dropRefs_entries, State.records, hp, hl]
  exact (h.refs.perm (records_perm_pack perm rfl)).dropAll _ _

theorem Referenced.convertLot (h : Referenced s) {x : Lot} (hx : s.lot id = some x)
    (ht : t.lots.lots = keyErase Lot.number id s.lots.lots)
    (hc : t.charges.entries = (s.dropRefs x.contributors).charges.entries) (hp : t.packs = s.packs) : Referenced t := by
  have perm := h.lots.perm_keyErase (keyFind_mem hx)
  rw [keyFind_key hx] at perm
  refine ⟨?_, hp ▸ h.packs, by rw [ht]; exact rising_keyErase id h.lots⟩
  rw [hc, dropRefs_entries, State.records, ht, hp]
  exact (h.refs.perm (records_perm_lot perm rfl)).dropAll _ _

/-! ## The label engine -/

theorem finishPack_packLists (s : State) (j : Job) : (s.finishPack j).packLists = s.packLists := by
  unfold State.finishPack
  split
  · exact modifyPack_packLists (f := fun q => { q with state := .labelled, serial := j.serial }) (fun _ => rfl) s j.pack
  · exact modifyPack_packLists (f := fun q => { q with reprints := satInc max8 q.reprints }) (fun _ => rfl) s j.pack

/-- The engine's own steps leave the pack records alone. -/
theorem packLists_of_within (h : Within (fun b => match b with | .label => true | _ => false) s t) :
    t.packLists = s.packLists :=
  congrArg (fun x : PackBuilder => x.packs.map Pack.listing) (h.blocks .packs rfl)

theorem completeJob_packLists (s : State) (lbsy : Bool) (j : Job) (rest : List Job) :
    (s.completeJob lbsy j rest).packLists = s.packLists := by
  have filled : (((s.finishPack j).withLabel { s.label with queue := rest }).fillQueue lbsy).packLists = s.packLists :=
    (fillQueue_packLists _ lbsy).trans (finishPack_packLists s j)
  unfold State.completeJob
  dsimp only
  split
  · exact (packLists_of_within ((Within.refl _).startHead rfl lbsy)).trans filled
  · exact filled

theorem verify_packLists (s : State) (lbsy : Bool) (bs : List Byte) : (s.verify lbsy bs).packLists = s.packLists := by
  unfold State.verify
  dsimp only
  split
  · rfl
  · split
    · exact completeJob_packLists (s.withLabel _) lbsy _ _
    · rfl

theorem cycleEnd_packLists (s : State) (lbsy : Bool) (ld : Byte) : (s.cycleEnd lbsy ld).packLists = s.packLists := by
  unfold State.cycleEnd
  split
  · dsimp only
    split
    · refine packLists_of_within (s := s) ?_
      unfold State.sendNext
      exact .ite (((Within.refl s).withLabel rfl _).fieldEnd rfl lbsy _)
        (.ite ((((Within.refl s).withLabel rfl _).withLabel rfl _).beginCycle rfl lbsy)
          (((Within.refl s).withLabel rfl _).fieldEnd rfl lbsy _))
    · unfold State.readNext
      split
      · exact packLists_of_within (((((Within.refl s).withLabel rfl _).withLabel rfl _)).beginCycle rfl lbsy)
      · exact verify_packLists (s.withLabel _) lbsy _
  · rfl

end

end Sys2Proof.Machine

end

section
/-! SUPPORT. The run in progress and its boards in flight (R64, R120): what arrives at queue A, passes to queue B and
leaves it. -/

namespace Sys2Proof.Machine

/-- The charges of the boards in the queues of a run. -/
def Run.aloft (n : Run) : List Nat := (n.queueA ++ n.queueB).map Board.charge

/-- The sources of the run in progress. -/
def State.sources (s : State) : List Nat :=
  match s.tracker.run with
  | some n => n.sources
  | none => []

/-- The charges of the boards in the queues of the run in progress. -/
def State.aloft (s : State) : List Nat :=
  match s.tracker.run with
  | some n => n.aloft
  | none => []

/-- An OPEN run has a source. -/
def Run.Fed (n : Run) : Prop := n.state = .isOpen → n.sources ≠ []

/-- The boards in flight are those of the run in progress, and an OPEN run has a source (R120, R123). -/
structure Flown (s : State) : Prop where
  flight : FlightOk s.charges.entries s.sources s.aloft
  fed : ∀ n, s.tracker.run = some n → n.Fed

theorem wing_kilnView : KilnView Charge.wing where
  id := ⟨Prod.fst, fun _ => rfl⟩
  samples := fun _ _ => rfl
  flags := fun _ _ => rfl
  heat := fun _ _ => rfl
  working := fun c st hc hs => by
    have grounded (st : ChargeState) (h : usesSchedule st = true) : (st == .planing) = false := by
      cases st with
      | planing => cases h
      | _ => rfl
    simp only [Charge.wing, grounded _ hc, grounded _ hs]

theorem wing_bookView : BookView Charge.wing := fun _ _ => rfl

section

variable {s t : State} {m n : Run} {id : Nat} {c : Charge} {src src' al al' : List Nat}

theorem sources_of_run (h : s.tracker.run = some n) : s.sources = n.sources := by rw [State.sources, h]

theorem aloft_of_run (h : s.tracker.run = some n) : s.aloft = n.aloft := by rw [State.aloft, h]

theorem isListed_eq (s : State) (id : Nat) : s.isListed id = s.sources.contains id := by
  unfold State.isListed State.sources
  cases s.tracker.run <;> rfl

/-- What the tracker's boards look at: the charges' wings and the run. -/
theorem Flown.of_wing (h : Flown s) (hw : t.seen Charge.wing = s.seen Charge.wing) (hr : t.tracker.run = s.tracker.run) :
    Flown t := by
  have sources : t.sources = s.sources := by rw [State.sources, hr]; rfl
  have aloft : t.aloft = s.aloft := by rw [State.aloft, hr]; rfl
  exact ⟨sources ▸ aloft ▸ h.flight.of_wing hw, hr ▸ h.fed⟩

/-- A run in progress, and its boards in flight. -/
theorem flown_of_run (hr : s.tracker.run = some n) (h : FlightOk s.charges.entries n.sources n.aloft) (hf : n.Fed) :
    Flown s :=
  ⟨sources_of_run hr ▸ aloft_of_run hr ▸ h, fun m hm => by cases hr.symm.trans hm; exact hf⟩

theorem Flown.of_run (h : Flown s) (hr : s.tracker.run = some n) : FlightOk s.charges.entries n.sources n.aloft :=
  sources_of_run hr ▸ aloft_of_run hr ▸ h.flight

/-- A state without a run. -/
theorem flown_of_none (hr : s.tracker.run = none) (h : ∀ c ∈ s.charges.entries, c.stats.inFlight = 0) : Flown s := by
  have sources : s.sources = [] := by rw [State.sources, hr]
  have aloft : s.aloft = [] := by rw [State.aloft, hr]
  exact ⟨sources ▸ aloft ▸ flightOk_empty.2 h, fun m hm => nomatch hr.symm.trans hm⟩

/-- The run is replaced by one with the same boards. -/
theorem Flown.withRun (h : Flown s) (hr : s.tracker.run = some n) (hst : m.state = n.state) (hs : m.sources = n.sources)
    (hp : m.aloft.Perm n.aloft) : Flown (s.withRun (some m)) :=
  flown_of_run rfl ((h.of_run hr).mono (hs ▸ List.Subset.refl _) hp) fun hm => by
    rw [hs]
    exact h.fed n hr (hst ▸ hm)

/-! ## Boards leave queue B (R120, R130, R135) -/

theorem settle_entries (s : State) (id : Nat) : (s.settle id).charges.entries =
    keyModify Charge.id id (Charge.settle (s.sources.contains id)) s.charges.entries := by
  rw [← isListed_eq]
  rfl

/-- A board has left, and its charge settles. -/
theorem boardLeft_flight (h : FlightOk s.charges.entries s.sources (id :: al)) :
    FlightOk (s.boardLeft id).charges.entries s.sources al := by
  rw [State.boardLeft, settle_entries]
  exact h.land.settle id

/-- The run after a board of charge `id` has left queue B. -/
theorem Flown.boardLeft (h : Flown s) (hr : s.tracker.run = some n) (hst : m.state = n.state) (hs : m.sources = n.sources)
    (hp : n.aloft.Perm (id :: m.aloft)) : Flown ((s.withRun (some m)).boardLeft id) := by
  have before : FlightOk s.charges.entries m.sources (id :: m.aloft) :=
    (h.of_run hr).mono (hs ▸ List.Subset.refl _) hp.symm
  refine flown_of_run (n := m) rfl (boardLeft_flight (s := s.withRun (some m)) before) fun hm => ?_
  rw [hs]
  exact h.fed n hr (hst ▸ hm)

/-- A run that goes on from `n`: the boards in flight are the new run's, which has the same state and sources. -/
structure GoesOn (n : Run) (x : State × Run) : Prop where
  flown : Flown x.1
  run : x.1.tracker.run = some x.2
  state : x.2.state = n.state
  sources : x.2.sources = n.sources

theorem loseOldest_goesOn (h : Flown s) (hr : s.tracker.run = some n) :
    GoesOn n (s.loseOldest n) ∧ (s.loseOldest n).2.queueA = n.queueA := by
  unfold State.loseOldest
  split
  · exact ⟨⟨h, hr, rfl, rfl⟩, rfl⟩
  · rename_i b rest hb
    have perm : n.aloft.Perm (b.charge :: (n.queueA ++ rest).map Board.charge) := by
      rw [Run.aloft, hb]
      exact List.perm_middle.map Board.charge
    have left := h.boardLeft (m := { n with
        queueB := rest, bOverrun := true, counters := { n.counters with lost := satInc max32 n.counters.lost } })
      hr rfl rfl perm
    exact ⟨⟨left.of_wing rfl rfl, rfl, rfl, rfl⟩, rfl⟩

theorem roomInB_goesOn (h : Flown s) (hr : s.tracker.run = some n) :
    GoesOn n (s.roomInB n) ∧ (s.roomInB n).2.queueA = n.queueA := by
  unfold State.roomInB
  split
  · exact loseOldest_goesOn h hr
  · exact ⟨⟨h, hr, rfl, rfl⟩, rfl⟩

/-- The oldest board of queue A passes to queue B as `x`, a board of the same charge. -/
theorem passed_perm {b x : Board} {A B : List Board} (hx : x.charge = b.charge) :
    ((A ++ (B ++ [x])).map Board.charge).Perm (((b :: A) ++ B).map Board.charge) := by
  rw [← List.append_assoc]
  refine (List.perm_append_comm.map Board.charge).trans ?_
  simp [hx]

theorem overrunA_goesOn (h : Flown s) (hr : s.tracker.run = some n) : GoesOn n (s.overrunA n) := by
  unfold State.overrunA
  split
  · exact ⟨h, hr, rfl, rfl⟩
  · rename_i b rest hb
    obtain ⟨⟨flown, run, state, sources⟩, queueA⟩ := roomInB_goesOn h hr
    have fed : (s.roomInB n).2.Fed := flown.fed _ run
    have flight := flown.of_run run
    rw [Run.aloft, queueA, hb] at flight
    exact ⟨flown_of_run rfl (flight.mono (List.Subset.refl _) (passed_perm rfl)) fed, rfl, state, sources⟩

theorem roomInA_goesOn (h : Flown s) (hr : s.tracker.run = some n) : GoesOn n (s.roomInA n) := by
  unfold State.roomInA
  split
  · exact overrunA_goesOn h hr
  · exact ⟨h, hr, rfl, rfl⟩

/-! ## Boards arrive (R127) -/

/-- A charge that is listed or aloft is PLANING, whichever entry of its id is looked at. -/
theorem FlightOk.planing (ho : Rising Charge.id s.charges.entries) (h : FlightOk s.charges.entries src al)
    (hid : id ∈ src ∨ id ∈ al) : ∀ c ∈ s.charges.entries, c.id = id → c.state = .planing := by
  intro c hc hk
  obtain ⟨d, hd, hdk, planing⟩ := h.listed id hid
  rw [ho.eq_of_key hc hd (hk.trans hdk.symm)]
  exact planing

theorem Flown.boardArrives (h : Flown s) (ho : s.Ordered) (hr : s.tracker.run = some n) (hs : n.state = .isOpen) :
    Flown (s.boardArrives n) := by
  obtain ⟨flown, run, state, sources⟩ := roomInA_goesOn h hr
  have ordered : (s.roomInA n).1.Ordered := tie_kilnView.ordered ho (roomInA_seen tie_lineView s n)
  have fed : (s.roomInA n).2.Fed := flown.fed _ run
  rw [boardArrives_eq]
  generalize s.roomInA n = x at *
  have first : x.2.sources.headD 0 ∈ x.2.sources := by
    cases e : x.2.sources with
    | nil => exact absurd e (fed (state.trans hs))
    | cons id rest => exact List.mem_cons_self ..
  have before := flown.of_run run
  have arrived := before.fly first (before.planing ordered (.inl first))
  refine flown_of_run (n := x.2.append (x.2.sources.headD 0)) rfl (arrived.mono (List.Subset.refl _) ?_) fed
  rw [Run.aloft, Run.append, List.append_assoc]
  exact List.perm_middle.map Board.charge

theorem Flown.eyeRises (h : Flown s) (ho : s.Ordered) : Flown s.eyeRises := by
  have high : Flown (s.withTracker { s.tracker with eye := true }) := h.of_wing rfl rfl
  unfold State.eyeRises
  split
  · exact h
  · dsimp only
    split
    · rename_i n hn
      obtain ⟨run, isOpen⟩ := Option.filter_eq_some_iff.1 hn
      exact high.boardArrives ho run (eq_of_beq isOpen)
    · exact high.of_wing rfl rfl

/-! ## Meter frames (R130, R131) -/

theorem meterBoard_charge (s : State) (n : Run) (f : MeterFrame) (b : Board) : (s.meterBoard n f b).charge = b.charge := by
  unfold State.meterBoard
  dsimp only
  split <;> rfl

theorem feedBack_wing (ho : s.Ordered) (b : Board) : (s.feedBack b).seen Charge.wing = s.seen Charge.wing := by
  unfold State.feedBack
  split
  · rename_i reading cls c _ _ hc
    refine (raiseIf_seen _ _ _).trans (modifyCharge_seen_found ho (charge_found hc) ?_)
    have flying : (c.stats.classified cls reading).inFlight = c.stats.inFlight := by
      unfold PlanerStats.classified
      split <;> rfl
    unfold Charge.fedBack
    dsimp only
    split <;> simp only [Charge.wing, flying]
  · rfl

theorem feedBack_tracker (s : State) (b : Board) : (s.feedBack b).tracker = s.tracker :=
  ((Within.refl s).feedBack (P := fun b => match b with | .charges => true | _ => false) rfl b).blocks .tracker rfl

theorem Flown.feedBack (h : Flown s) (ho : s.Ordered) (b : Board) : Flown (s.feedBack b) :=
  h.of_wing (feedBack_wing ho b) (congrArg Tracker.run (feedBack_tracker s b))

theorem Flown.pairFrame (h : Flown s) (ho : s.Ordered) (hr : s.tracker.run = some n) {b : Board} {rest : List Board}
    (hb : n.queueA = b :: rest) (f : MeterFrame) : Flown (s.pairFrame n f b rest) := by
  obtain ⟨⟨flown, run, _, _⟩, queueA⟩ := roomInB_goesOn h hr
  have ordered : (s.roomInB n).1.Ordered := tie_kilnView.ordered ho (roomInB_seen tie_lineView s n)
  unfold State.pairFrame
  generalize s.roomInB n = x at *
  dsimp only
  have passed : Flown (x.1.withRun (some { x.2 with
      queueA := rest, queueB := x.2.queueB ++ [x.1.meterBoard x.2 f b] })) := by
    refine flown.withRun run rfl rfl ?_
    rw [Run.aloft, Run.aloft, queueA, hb]
    exact passed_perm (meterBoard_charge ..)
  exact passed.feedBack ordered _

theorem Flown.frameInRun (h : Flown s) (ho : s.Ordered) (hr : s.tracker.run = some n) (f : MeterFrame) :
    Flown (s.frameInRun n f) := by
  have metered : Flown (s.withRun (some (n.metered (s.param 13) f.isSome))) := h.withRun hr rfl rfl (.refl _)
  obtain ⟨ports, raised⟩ : ∃ ports, (s.withRun (some (n.metered (s.param 13) f.isSome))).raiseIf
      ((n.metered (s.param 13) f.isSome).meter != n.meter) .meterState =
        (s.withRun (some (n.metered (s.param 13) f.isSome))).withPorts ports := ⟨_, State.raiseIf_eq ..⟩
  unfold State.frameInRun
  dsimp only
  rw [raised]
  split
  · exact (metered.withRun (m := { n.metered (s.param 13) f.isSome with aUnderrun := true }) rfl rfl rfl (.refl _)).of_wing
      rfl rfl
  · rename_i b rest hb
    have alerted : Flown ((s.withRun (some (n.metered (s.param 13) f.isSome))).withPorts ports) := metered.of_wing rfl rfl
    exact alerted.pairFrame ho rfl hb f

theorem Flown.frameArrives (h : Flown s) (ho : s.Ordered) (f : MeterFrame) : Flown (s.frameArrives f) := by
  have emptied : Flown (s.withTracker { s.tracker with receiver := [] }) := h.of_wing rfl rfl
  unfold State.frameArrives
  dsimp only
  split
  · exact emptied.frameInRun ho ‹_› f
  · exact emptied

theorem Flown.fifthByte (h : Flown s) (ho : s.Ordered) (x : MeterByte) : Flown (s.fifthByte x) := by
  unfold State.fifthByte
  split
  · exact h.frameArrives ho _
  · exact h

theorem Flown.meterIdle (h : Flown s) (ho : s.Ordered) : Flown s.meterIdle := by
  unfold State.meterIdle
  split
  · exact h
  · exact h.frameArrives ho _

/-! ## Boards are graded (R133 to R135) -/

/-- A board that a queue holds stands beside what its dispatch leaves. -/
theorem perm_eraseP_of_find? {α : Type} {p : α → Bool} {l : List α} {a : α} (h : l.find? p = some a) :
    l.Perm (a :: l.eraseP p) := by
  obtain ⟨pa, l₁, l₂, rfl, before⟩ := List.find?_eq_some_iff_append.1 h
  rw [List.eraseP_append_right _ fun b hb => by simpa using before b hb, List.eraseP_cons_of_pos pa]
  exact List.perm_middle

theorem decided_aloft {b : Board} {seq : Nat} (h : n.queueB.find? (fun b => b.seq == seq) = some b) (d : Decision) :
    n.aloft.Perm (b.charge :: (n.decided b d).aloft) := by
  have found := List.find?_some h
  rw [← eq_of_beq found] at h
  exact (((perm_eraseP_of_find? h).append_left n.queueA).trans List.perm_middle).map Board.charge

/-- A run that ends leaves no board in flight. -/
theorem Flown.endRun (h : Flown s) (hr : s.tracker.run = some n) (he : n.aloft = []) (kind : EndKind) :
    Flown (s.endRun m kind) := by
  have empty := (h.of_run hr).mono (List.nil_subset _) (List.Perm.refl _)
  rw [he] at empty
  exact flown_of_none rfl (flightOk_empty.1 empty)

theorem drained_aloft (h : n.drained = true) : n.aloft = [] := by
  simp only [Run.drained, Bool.and_eq_true, List.isEmpty_iff] at h
  obtain ⟨⟨_, queueA⟩, queueB⟩ := h
  rw [Run.aloft, queueA, queueB]
  rfl

theorem Flown.dispatch (h : Flown s) (hr : s.tracker.run = some n) {b : Board} {seq : Nat}
    (hb : n.queueB.find? (fun b => b.seq == seq) = some b) (d : Decision) : Flown (s.dispatch n b d) := by
  have left := h.boardLeft hr (m := n.decided b d) rfl rfl (decided_aloft hb d)
  unfold State.dispatch
  dsimp only
  split
  · rename_i drained
    exact left.endRun rfl (drained_aloft drained) .closed
  · exact left

theorem sortBoard_tracker (s : State) (lbsy : Bool) (n : Run) (b : Board) (g : GradeReport) :
    (s.sortBoard lbsy n b g).1.tracker = s.tracker := by
  rcases sortBoard_cases s lbsy n b g with e | ⟨sp, th, volume, e⟩ | ⟨bin, x, _, e⟩ <;> rw [e]
  · exact ((Within.refl s).handToLot (P := fun b => match b with | .charges | .lots => true | _ => false) rfl rfl sp th
      b.charge volume).blocks .tracker rfl
  · exact ((Within.refl s).handToBin (P := fun b => match b with | .charges | .packs | .label => true | _ => false) rfl rfl
      rfl lbsy bin x).blocks .tracker rfl

theorem Flown.sortBoard (h : Flown s) (lbsy : Bool) (n : Run) (b : Board) (g : GradeReport) :
    Flown (s.sortBoard lbsy n b g).1 :=
  h.of_wing (sortBoard_seen wing_bookView ..) (congrArg Tracker.run (sortBoard_tracker ..))

/-! ## Sources join and leave, and runs end (R121 to R126) -/

theorem Flown.openRun (h : Flown s) (ho : s.Ordered) (hr : s.tracker.run = none) (hc : s.charge id = some c)
    (hs : c.state = .released) (hn : n.sources = [c.id]) (ha : n.aloft = []) (last : Nat) :
    Flown ((s.withTracker { s.tracker with run := some n, lastRun := last }).modifyCharge c.id Charge.plane) := by
  have none : FlightOk s.charges.entries [] [] := by
    have flight := h.flight
    rwa [State.sources, State.aloft, hr] at flight
  have only {d : Charge} (hd : d ∈ s.charges.entries) (hk : d.id = c.id) : d = c := ho.eq_of_key hd (charge_mem hc) hk
  have planed := none.plane (f := Charge.plane) ⟨c, charge_mem hc, rfl⟩
    (fun d hd hk => by rw [only hd hk, hs]; nofun) fun d hd hk => ⟨rfl, rfl, flightOk_empty.1 none d hd⟩
  refine flown_of_run (n := n) rfl ?_ fun _ => by rw [hn]; nofun
  rw [hn, ha]
  exact planed

theorem Flown.addSource (h : Flown s) (ho : s.Ordered) (hr : s.tracker.run = some n) (hc : s.charge id = some c)
    (hs : c.state = .released) :
    Flown ((s.withRun (some { n with sources := n.sources ++ [id] })).modifyCharge id fun c =>
      { c.plane with stats := { c.stats with inFlight := 0 } }) := by
  have only {d : Charge} (hd : d ∈ s.charges.entries) (hk : d.id = id) : d = c := ho.charge_eq hc hd hk
  have planed := (h.of_run hr).plane (f := fun c => { c.plane with stats := { c.stats with inFlight := 0 } })
    ⟨c, charge_mem hc, charge_id hc⟩ (fun d hd hk => by rw [only hd hk, hs]; nofun) fun d hd hk => ⟨rfl, rfl, rfl⟩
  exact flown_of_run rfl planed fun _ => by simp

theorem Flown.advanceSource (h : Flown s) (hr : s.tracker.run = some n) {old head : Nat} {rest : List Nat}
    (hs : n.sources = old :: head :: rest) :
    Flown ((s.withRun (some { n with sources := head :: rest })).settle old) := by
  have fewer : FlightOk s.charges.entries (head :: rest) n.aloft :=
    (h.of_run hr).mono (hs ▸ List.subset_cons_self _ _) (.refl _)
  refine flown_of_run (n := { n with sources := head :: rest }) rfl ?_ fun _ => by simp
  rw [settle_entries]
  exact fewer.settle old

/-- No board is in flight, whatever the charges' states become. -/
theorem foldl_modify_grounded {f : Charge → Charge} (hf : ∀ c, c.stats.inFlight = 0 → (f c).stats.inFlight = 0) :
    ∀ (l : List Nat) (s : State), (∀ c ∈ s.charges.entries, c.stats.inFlight = 0) →
      ∀ c ∈ (l.foldl (fun t id => t.modifyCharge id f) s).charges.entries, c.stats.inFlight = 0
  | [], _, h => h
  | id :: l, s, h => foldl_modify_grounded hf l _ fun c hc => by
    rcases mem_keyModify hc with ⟨hc, _⟩ | ⟨d, hd, _, rfl⟩
    · exact h c hc
    · exact hf d (h d hd)

theorem planed_grounded (c : Charge) (h : c.stats.inFlight = 0) : c.planed.stats.inFlight = 0 := by
  unfold Charge.planed
  split <;> exact h

theorem Flown.closeEmpty (h : Flown s) (hr : s.tracker.run = some n) (he : n.aloft = []) (l : List Nat) (kind : EndKind) :
    Flown ((s.planeAll l).endRun m kind) := by
  have empty := (h.of_run hr).mono (List.nil_subset _) (List.Perm.refl _)
  rw [he] at empty
  exact flown_of_none rfl (foldl_modify_grounded planed_grounded l s (flightOk_empty.1 empty))

theorem settleAll_flown : ∀ (l : List Nat) {s : State}, Flown s → Flown (s.settleAll l)
  | [], _, h => h
  | id :: l, s, h => settleAll_flown l (s := s.settle id) ⟨by
      rw [settle_entries]
      exact h.flight.settle id, h.fed⟩

theorem Flown.drain (h : Flown s) (hr : s.tracker.run = some n) (l : List Nat) :
    Flown ((s.withRun (some { n with state := .draining, sources := [] })).settleAll l) :=
  settleAll_flown l (flown_of_run rfl ((h.of_run hr).mono (List.nil_subset _) (.refl _)) nofun)

/-- Charges that are grounded or yet to return to RELEASED. -/
theorem unplaneAll_grounded : ∀ (l : List Nat) (s : State),
    (∀ c ∈ s.charges.entries, (c.state ≠ .planing → c.stats.inFlight = 0) ∧ (c.stats.inFlight ≠ 0 → c.id ∈ l)) →
      ∀ c ∈ (l.foldl (fun t id => t.modifyCharge id Charge.unplane) s).charges.entries, c.stats.inFlight = 0
  | [], _, h => fun c hc => by
    by_contra flying
    exact List.not_mem_nil ((h c hc).2 flying)
  | id :: l, s, h => unplaneAll_grounded l _ fun c hc => by
    rcases mem_keyModify hc with ⟨hc, hne⟩ | ⟨d, hd, _, rfl⟩
    · obtain ⟨grounded, listed⟩ := h c hc
      exact ⟨grounded, fun flying => List.mem_of_ne_of_mem hne (listed flying)⟩
    · have landed : d.unplane.stats.inFlight = 0 := by
        unfold Charge.unplane
        split
        · rfl
        · exact (h d hd).1 ‹_›
      exact ⟨fun _ => landed, fun flying => absurd landed flying⟩

theorem Flown.abort (h : Flown s) (hr : s.tracker.run = some n) (kind : EndKind) :
    Flown ((n.charges.foldl (fun t id => t.modifyCharge id Charge.unplane) s).endRun m kind) := by
  have flight := h.of_run hr
  refine flown_of_none rfl (unplaneAll_grounded n.charges s fun c hc => ⟨flight.grounded c hc, fun flying => ?_⟩)
  have aloft : c.id ∈ n.aloft := by
    by_contra absent
    exact flying ((flight.flight c hc).trans (List.count_eq_zero.2 absent))
  rw [Run.aloft, List.map_append] at aloft
  rw [Run.charges, List.append_assoc]
  exact List.mem_append_right _ aloft

end

end Sys2Proof.Machine

end

section
/-! SUPPORT. The reference counts and the boards in flight under every command (R64, R66, R120). -/

namespace Sys2Proof.Machine

/-- The reference counts, the boards in flight and the order of the Charge Table, while the part runs. -/
structure LiveRefs (s : State) : Prop where
  refs : Referenced s
  flown : Flown s
  ordered : s.Ordered

/-- A charge as the references and the boards in flight see it. -/
def Charge.stand (c : Charge) : (Nat × Nat) × Nat × Nat × Bool := (c.tie, c.wing)

theorem stand_kilnView : KilnView Charge.stand where
  id := ⟨fun x => x.1.1, fun _ => rfl⟩
  samples := fun _ _ => rfl
  flags := fun _ _ => rfl
  heat := fun _ _ => rfl
  working := fun c st hc hs => Prod.ext rfl (wing_kilnView.working c st hc hs)

section

variable {s t : State} {n m : Run} {id : Nat} {c d : Charge} {f more : Charge → Charge}

/-! ## The invariant as the two parts -/

theorem listings_eq (s : State) (id : Nat) : s.listings id = s.records.countP fun l => decide (id ∈ l) := by
  rw [State.listings, State.records, List.countP_append, List.countP_map, List.countP_map, List.countP_eq_length_filter,
    List.countP_eq_length_filter]
  rfl

theorem flying_eq (s : State) (id : Nat) : s.flying id = s.aloft.count id := by
  unfold State.flying State.aloft
  cases s.tracker.run with
  | none => rfl
  | some n =>
    dsimp only [Run.aloft]
    rw [List.count, List.countP_map, List.countP_eq_length_filter]
    rfl

theorem named_once (s : State) : (∀ l ∈ s.records, l.Nodup) ↔
    (∀ q ∈ s.packs.packs, (q.contributors.map Contributor.charge).Nodup) ∧
      ∀ x ∈ s.lots.lots, (x.contributors.map Contributor.charge).Nodup := by
  simp only [State.records, List.forall_mem_append, List.forall_mem_map, namedBy]

theorem refCounts_iff (s : State) : RefCounts s.charges.entries s.records ↔
    (∀ c ∈ s.charges.entries, c.refs = s.listings c.id) ∧
      (∀ id, s.listings id ≠ 0 → ∃ c ∈ s.charges.entries, c.id = id) ∧ ∀ l ∈ s.records, l.Nodup := by
  have listed (id : Nat) : s.listings id ≠ 0 ↔ ∃ l ∈ s.records, id ∈ l := by
    rw [listings_eq, Nat.ne_zero_iff_zero_lt, List.countP_pos_iff]
    simp
  constructor
  · rintro ⟨counts, present, once⟩
    refine ⟨fun c hc => by rw [listings_eq]; exact counts c hc, fun id hid => ?_, once⟩
    obtain ⟨l, hl, mem⟩ := (listed id).1 hid
    exact present l hl id mem
  · rintro ⟨counts, present, once⟩
    exact ⟨fun c hc => by rw [← listings_eq]; exact counts c hc,
      fun l hl id hid => present id ((listed id).2 ⟨l, hl, hid⟩), once⟩

/-- The boards in flight of a running part, as the invariant says it. -/
theorem flown_iff (s : State) : Flown s ↔ (∀ c ∈ s.charges.entries, c.state ≠ .planing → c.stats.inFlight = 0) ∧
    (∀ c ∈ s.charges.entries, c.stats.inFlight = s.flying c.id) ∧
      ∀ n, s.tracker.run = some n → (n.state = .isOpen → n.sources ≠ []) ∧
        ∀ id, id ∈ n.sources ∨ id ∈ (n.queueA ++ n.queueB).map Board.charge →
          ∃ c ∈ s.charges.entries, c.id = id ∧ c.state = .planing := by
  constructor
  · rintro ⟨⟨grounded, flight, listed⟩, fed⟩
    refine ⟨grounded, fun c hc => by rw [flying_eq]; exact flight c hc, fun n hn => ⟨fed n hn, fun id hid => listed id ?_⟩⟩
    rw [sources_of_run hn, aloft_of_run hn]
    exact hid
  · rintro ⟨grounded, flight, run⟩
    refine ⟨⟨grounded, fun c hc => by rw [← flying_eq]; exact flight c hc, fun id hid => ?_⟩, fun n hn => (run n hn).1⟩
    cases hr : s.tracker.run with
    | none => simp [State.sources, State.aloft, hr] at hid
    | some n =>
      rw [sources_of_run hr, aloft_of_run hr] at hid
      exact (run n hr).2 id hid

theorem RefsOk.referenced (h : RefsOk s) : Referenced s :=
  ⟨(refCounts_iff s).2 ⟨h.counts, h.present, (named_once s).2 h.once⟩, h.keys.2.1, h.keys.2.2⟩

theorem RefsOk.live (h : RefsOk s) (running : s.retention.phase = .running) : LiveRefs s :=
  ⟨h.referenced, (flown_iff s).2 ⟨h.grounded, h.flight running, h.run running⟩, h.keys.1⟩

/-- The two parts make the invariant; the boards in flight are looked at while the part runs. -/
theorem refsOk_of_parts (h : Referenced s) (ho : s.Ordered)
    (hg : ∀ c ∈ s.charges.entries, c.state ≠ .planing → c.stats.inFlight = 0)
    (hf : s.retention.phase = .running → Flown s) : RefsOk s := by
  obtain ⟨counts, present, once⟩ := (refCounts_iff s).1 h.refs
  exact ⟨counts, present, (named_once s).1 once, hg, fun running => ((flown_iff s).1 (hf running)).2.1,
    fun running => ((flown_iff s).1 (hf running)).2.2, ho, h.packs, h.lots⟩

theorem LiveRefs.refsOk (h : LiveRefs s) : RefsOk s :=
  refsOk_of_parts h.refs h.ordered h.flown.flight.grounded fun _ => h.flown

/-! ## What the invariant looks at -/

theorem tie_of_stand (h : t.seen Charge.stand = s.seen Charge.stand) : t.seen Charge.tie = s.seen Charge.tie := by
  have ties (u : State) : u.seen Charge.tie = (u.seen Charge.stand).map Prod.fst := by
    rw [State.seen, State.seen, List.map_map]; rfl
  rw [ties, ties, h]

theorem wing_of_stand (h : t.seen Charge.stand = s.seen Charge.stand) : t.seen Charge.wing = s.seen Charge.wing := by
  have wings (u : State) : u.seen Charge.wing = (u.seen Charge.stand).map Prod.snd := by
    rw [State.seen, State.seen, List.map_map]; rfl
  rw [wings, wings, h]

/-- Charges, records and a run that are seen as they were. -/
theorem RefsOk.of_view (h : RefsOk s) (hs : t.seen Charge.stand = s.seen Charge.stand) (hp : t.packLists = s.packLists)
    (hl : t.lotLists = s.lotLists) (hr : t.tracker.run = s.tracker.run) (hph : t.retention.phase = s.retention.phase) :
    RefsOk t := by
  refine refsOk_of_parts (h.referenced.of_view (tie_of_stand hs) hp hl) (stand_kilnView.ordered h.keys.1 hs)
    (fun c hc hst => ?_) fun running => (h.live (hph ▸ running)).flown.of_wing (wing_of_stand hs) hr
  obtain ⟨d, hd, same⟩ := exists_mem_of_map_eq (wing_of_stand hs) hc
  obtain ⟨_, count, planing⟩ := by simpa only [Charge.wing, Prod.ext_iff] using same
  exact count ▸ h.grounded d hd fun hdp => hst (by rw [← beq_iff_eq, ← planing, hdp]; rfl)

theorem RefsOk.of_eq (h : RefsOk s) (hc : t.charges = s.charges) (hp : t.packs = s.packs) (hl : t.lots = s.lots)
    (hr : t.tracker = s.tracker) (hph : t.retention.phase = s.retention.phase) : RefsOk t :=
  h.of_view (seen_of_charges hc) (by rw [State.packLists, hp]; rfl) (by rw [State.lotLists, hl]; rfl) (by rw [hr]) hph

theorem refsOk_blockInv : BlockInv RefsOk := fun _ _ h => h.of_eq rfl rfl rfl rfl rfl

/-- While the part runs, an act keeps the invariant where it keeps its two parts. -/
theorem keeps_of_live {act : Act} (h : ∀ p r s, LiveRefs s → Gives (fun x => LiveRefs x.1) (act p r s)) :
    act.Keeps RefsOk := fun p r s running hs x hx => (h p r s (hs.live running) x hx).refsOk

/-- Charges that a view of the planer line does not see, and a run that flies on. -/
theorem LiveRefs.of_line (h : LiveRefs s) (ht : t.seen Charge.tie = s.seen Charge.tie) (hp : t.packs = s.packs)
    (hl : t.lots = s.lots) (hf : Flown t) : LiveRefs t :=
  ⟨h.refs.of_tie ht hp hl, hf, tie_kilnView.ordered h.ordered ht⟩

/-- Records that stand while the boards in flight do. -/
theorem LiveRefs.of_book (h : LiveRefs s) (hw : t.seen Charge.wing = s.seen Charge.wing) (hr : t.tracker = s.tracker)
    (hf : Referenced t) : LiveRefs t :=
  ⟨hf, h.flown.of_wing hw (by rw [hr]), wing_kilnView.ordered h.ordered hw⟩

/-! ## The kilns' work -/

/-- A charge that was not PLANING and does not become PLANING. -/
theorem stand_of_idle (hid : d.id = c.id) (hr : d.refs = c.refs) (hs : d.stats = c.stats) (hc : c.state ≠ .planing)
    (hd : d.state ≠ .planing) : d.stand = c.stand := by
  have idle {st : ChargeState} (h : st ≠ .planing) : (st == .planing) = false := beq_eq_false_iff_ne.2 h
  simp [Charge.stand, Charge.tie, Charge.wing, hid, hr, hs, idle hc, idle hd]

theorem loadKiln_seen (ho : s.Ordered) (hc : s.charge c.id = some c) (hs : c.state = .staged) (k : KilnNo) (x : Schedule) :
    (s.loadKiln k c x).seen Charge.stand = s.seen Charge.stand :=
  (writeTrace_seen ..).trans (modifyCharge_seen_found (f := fun c => { c with
      state := .loaded, kiln := some k, schedule := some x.number, finalTarget := some x.finalTarget
      firstTrace := some s.trace.next })
    ho hc (stand_of_idle rfl rfl rfl (by rw [hs]; nofun) nofun))

theorem loadAct_unseen : loadAct.Unseen Charge.stand := fun _ _ _ ho =>
  .bind fun _ => .bind fun _ => .bind fun _ => .bind fun _ => .bind' fun _ hc => .bind' fun _ hs => .bind fun _ =>
    .bind fun _ => .pure (loadKiln_seen ho (charge_found (orRefuse_ok hc)) (eq_of_beq (require_ok hs)) _ _)

theorem unloadLoaded_seen (ho : s.Ordered) (hc : s.charge c.id = some c) (hs : c.state = .loaded) (k : KilnNo) :
    (s.unloadLoaded k c).seen Charge.stand = s.seen Charge.stand := by
  have staged : (s.modifyCharge c.id fun c => { c with
      state := .staged, kiln := none, schedule := none, finalTarget := none }).seen Charge.stand = s.seen Charge.stand :=
    modifyCharge_seen_found ho hc (stand_of_idle rfl rfl rfl (by rw [hs]; nofun) nofun)
  unfold State.unloadLoaded
  refine (writeTrace_seen ..).trans ?_
  split <;> exact staged

theorem unloadDried_seen (ho : s.Ordered) (hc : s.charge c.id = some c) (hs : c.state = .dried) (k : KilnNo) :
    (s.unloadDried k c).seen Charge.stand = s.seen Charge.stand :=
  (writeTrace_seen ..).trans (modifyCharge_seen_found (f := fun c => { c with state := .released, kiln := none }) ho hc
    (stand_of_idle rfl rfl rfl (by rw [hs]; nofun) nofun))

theorem unloadAct_unseen : unloadAct.Unseen Charge.stand := fun _ _ _ ho => by
  refine .bind fun _ => .bind fun _ => .bind fun _ => .bind fun _ => .bind fun _ => .bind' fun c hc => ?_
  have found := charge_found (orRefuse_ok hc)
  split
  · exact .pure (unloadLoaded_seen ho found ‹_› _)
  · exact .pure (unloadDried_seen ho found ‹_› _)
  · exact .error _

/-- A change of step or phase of a charge that is not PLANING. -/
theorem applyChange_seen (ho : s.Ordered) (hd : s.charge c.id = some d) (hs : d.state ≠ .planing)
    (hmore : ∀ d, (more d).stand = d.stand) (k : KilnNo) (x : Schedule) (ch : Change) (kind : TraceKind) :
    (s.applyChange k c x ch more kind).seen Charge.stand = s.seen Charge.stand := by
  have returned : (s.returnSchedule c ch).charges = s.charges := by
    unfold State.returnSchedule
    split <;> rfl
  have still : ch.chargeState d.state ≠ .planing := by
    cases ch with
    | step n => exact hs
    | phase ph => nofun
    | dried => nofun
  have ordered : (s.returnSchedule c ch).Ordered := by rw [State.Ordered, returned]; exact ho
  have found : (s.returnSchedule c ch).charge c.id = some d := by rw [State.charge, returned]; exact hd
  have idle : ({ d with state := ch.chargeState d.state } : Charge).stand = d.stand := stand_of_idle rfl rfl rfl hs still
  exact (kilnChange_seen ordered found ((hmore { d with state := ch.chargeState d.state }).trans idle) k _ kind).trans
    (seen_of_charges returned)

theorem skipStepRule_unseen : (kilnCommand skipStepRule).Unseen Charge.stand :=
  kilnCommand_unseen fun k c x s t ho hc ht => by
  unfold skipStepRule at ht
  split at ht <;> cases ht
  rename_i hs
  exact applyChange_seen ho hc (by rw [hs]; nofun) (fun _ => rfl) k x _ _

theorem stopRule_unseen : (kilnCommand stopRule).Unseen Charge.stand :=
  kilnCommand_unseen fun k c x s t ho hc ht => by
  unfold stopRule at ht
  split at ht <;> cases ht
  rename_i hs
  have still : c.state ≠ .planing := by
    rcases (stopAccepts_iff c.state).1 hs with ⟨ph, e, _⟩ | ⟨ph, why, e⟩ <;> rw [e] <;> nofun
  exact applyChange_seen (more := fun c => { c with flags := { c.flags with earlyStop := true } }) ho hc still
    (fun _ => rfl) k x _ _

theorem timedOut_stand (b : Bool) (c : Charge) : (c.timedOut b).stand = c.stand := by cases b <;> rfl

theorem minuteTrigger_seen (ho : s.Ordered) (hd : s.charge c.id = some d) (hs : d.state = .planing → c.state = .planing)
    (k : KilnNo) (x : Schedule) : (minuteTrigger k c x s).seen Charge.stand = s.seen Charge.stand := by
  unfold minuteTrigger
  split
  · rename_i ph active
    split
    · exact applyChange_seen ho hd (fun h => nomatch active.symm.trans (hs h)) (timedOut_stand _) k x _ _
    · rfl
  · rfl

theorem minuteParts_seen (ho : s.Ordered) (hc : s.charge c.id = some c) (k : KilnNo) (x : Schedule) :
    (minuteParts k c x s).seen Charge.stand = s.seen Charge.stand := by
  have before := minuteBefore_seen stand_kilnView k c x s
  have found (u : State) : (u.charge c.id).map Charge.stand = (u.seen Charge.stand).find? fun y => y.1.1 == c.id := by
    rw [State.seen, List.find?_map]; rfl
  have same := found (minuteBefore k c x s)
  rw [before, ← found, hc] at same
  obtain ⟨d, hd, stands⟩ := Option.map_eq_some_iff.1 same
  have planing : (d.state == .planing) = (c.state == .planing) := congrArg (fun y => y.2.2.2) stands
  have triggered := minuteTrigger_seen (stand_kilnView.ordered ho before) hd
    (fun h => by rw [← beq_iff_eq, ← planing, h]; rfl) k x
  rw [minuteParts_eq]
  exact ((seen_of_charges ((minuteChart_within k c.id _).blocks .charges rfl)).trans triggered).trans before

theorem kilnMinute_seen (ho : s.Ordered) (k : KilnNo) : (s.kilnMinute k).seen Charge.stand = s.seen Charge.stand := by
  unfold State.kilnMinute
  split
  · rename_i c hc
    split
    · split
      · exact minuteParts_seen ho (kilnCharge_found hc) k _
      · rfl
    · rfl
  · rfl

/-! ## Charges join and leave the table -/

theorem LiveRefs.addCharge (h : LiveRefs s) (hn : ∀ d ∈ s.charges.entries, d.id ≠ c.id) (hr : c.refs = 0)
    (h0 : c.stats.inFlight = 0) : LiveRefs (s.addCharge c) := by
  have perm : (s.addCharge c).charges.entries.Perm (c :: s.charges.entries) := Rising.keyPut_perm_absent h.ordered hn
  exact ⟨⟨h.refs.refs.add hn hr perm, h.refs.packs, h.refs.lots⟩, ⟨h.flown.flight.add hn h0 perm, h.flown.fed⟩,
    rising_keyPut c h.ordered⟩

theorem defineChargeAct_live (p : Port) (r : Request) (s : State) (h : LiveRefs s) :
    Gives (fun x => LiveRefs x.1) (defineChargeAct p r s) :=
  .bind fun _ => .bind fun _ => .bind' fun _ hf => .pure (h.addCharge (nextChargeId_free (require_ok hf)) rfl rfl)

theorem dropRefs_within (s : State) (cs : List Contributor) :
    Within (fun b => match b with | .charges => true | _ => false) s (s.dropRefs cs) :=
  (Within.refl s).dropRefs rfl cs

theorem convertLotAct_live (p : Port) (r : Request) (s : State) (h : LiveRefs s) :
    Gives (fun x => LiveRefs x.1) (convertLotAct p r s) := by
  refine .bind fun n => .bind' fun x hx => .bind' fun _ hf => .pure ?_
  have added : LiveRefs (s.addCharge (x.charge s.nextChargeId)) :=
    h.addCharge (nextChargeId_free (require_ok hf)) rfl rfl
  have dropped := dropRefs_within (s.addCharge (x.charge s.nextChargeId)) x.contributors
  exact added.of_book (dropRefs_seen wing_bookView _ _) (dropped.blocks .tracker rfl)
    (added.refs.convertLot (orRefuse_ok hx) rfl rfl (dropped.blocks .packs rfl))

theorem retireChargeAct_live (p : Port) (r : Request) (s : State) (h : LiveRefs s) :
    Gives (fun x => LiveRefs x.1) (retireChargeAct p r s) := by
  refine .bind fun id => .bind' fun c hc => .bind' fun _ hs => .bind' fun _ hr => .pure ?_
  have only {d : Charge} (hd : d ∈ s.charges.entries) (hk : d.id = id) : d = c := h.ordered.charge_eq (orRefuse_ok hc) hd hk
  have planed : c.state = .planed := eq_of_beq (require_ok hs)
  have free : c.refs = 0 := eq_of_beq (require_ok hr)
  exact ⟨⟨h.refs.refs.erase fun d hd hk => by rw [only hd hk, free], h.refs.packs, h.refs.lots⟩,
    ⟨h.flown.flight.erase fun d hd hk => by rw [only hd hk, planed]; nofun, h.flown.fed⟩, rising_keyErase id h.ordered⟩

/-! ## Lots and packs -/

theorem closeLotAct_live (p : Port) (r : Request) (s : State) (h : LiveRefs s) :
    Gives (fun x => LiveRefs x.1) (closeLotAct p r s) :=
  .bind fun _ => .bind fun _ => .bind fun _ => .pure
    (h.of_book rfl rfl (h.refs.of_view rfl rfl (keyModify_map fun _ _ _ => rfl)))

theorem LiveRefs.closePack (h : LiveRefs s) (lbsy : Bool) (id : Nat) (cause : CloseCause) :
    LiveRefs (s.closePack lbsy id cause) :=
  h.of_book (closePack_seen ..) (((Within.refl s).closePack (P := fun b => match b with | .packs | .label => true | _ => false)
    rfl rfl lbsy id cause).blocks .tracker rfl) (h.refs.closePack lbsy id cause)

theorem setBinTargetAct_live (lbsy : Bool) (p : Port) (r : Request) (s : State) (h : LiveRefs s) :
    Gives (fun x => LiveRefs x.1) (setBinTargetAct lbsy p r s) := by
  refine .bind fun _ => .bind fun y => .pure ?_
  have target : LiveRefs (s.setTarget y.1 y.2) := h.of_book rfl rfl (h.refs.of_view rfl rfl rfl)
  dsimp only
  split
  · exact target.closePack lbsy _ _
  · exact target

theorem closePackAct_live (lbsy : Bool) (p : Port) (r : Request) (s : State) (h : LiveRefs s) :
    Gives (fun x => LiveRefs x.1) (closePackAct lbsy p r s) :=
  .bind fun _ => .bind fun _ => .pure (h.closePack lbsy _ _)

theorem releasePackAct_live (p : Port) (r : Request) (s : State) (h : LiveRefs s) :
    Gives (fun x => LiveRefs x.1) (releasePackAct p r s) := by
  refine .bind fun _ => .bind' fun q hq => .bind fun _ => .bind fun _ => .pure ?_
  have dropped := dropRefs_within s q.contributors
  exact h.of_book (dropRefs_seen wing_bookView _ _) (dropped.blocks .tracker rfl)
    (h.refs.releasePack (orRefuse_ok hq) rfl rfl (dropped.blocks .lots rfl))

/-! ## The planer line -/

/-- The blocks that the planer line changes before a board is graded. -/
def lineBlocks : Block → Bool
  | .charges | .tracker => true
  | _ => false

/-- An act of the planer line that leaves the references and the records alone. -/
theorem keeps_of_line {act : Act} (hu : act.Unseen Charge.tie) (hw : Act.Within lineBlocks act)
    (hf : ∀ p r s, LiveRefs s → Gives (fun x => Flown x.1) (act p r s)) : act.Keeps RefsOk :=
  keeps_of_live fun p r s h x hx =>
    h.of_line (hu p r s h.ordered x hx) ((hw p r s x hx).blocks .packs rfl) ((hw p r s x hx).blocks .lots rfl)
      (hf p r s h x hx)

theorem openRunAct_keeps : openRunAct.Keeps RefsOk :=
  keeps_of_line (openRunAct_unseen tie_lineView) (openRunAct_within rfl rfl) fun _ _ _ h =>
    .bind fun _ => .bind fun _ => .bind' fun _ hr => .bind' fun _ hc => .bind' fun _ hs =>
      .pure (h.flown.openRun h.ordered (Option.isNone_iff_eq_none.1 (require_ok hr)) (orRefuse_ok hc)
        (eq_of_beq (require_ok hs)) rfl rfl _)

/-- The run where it is OPEN. -/
theorem runOpen_eq (h : s.runOpen = some n) : s.tracker.run = some n ∧ n.state = .isOpen := by
  obtain ⟨run, isOpen⟩ := Option.filter_eq_some_iff.1 h
  exact ⟨run, eq_of_beq isOpen⟩

theorem addSourceAct_keeps : addSourceAct.Keeps RefsOk :=
  keeps_of_line (addSourceAct_unseen tie_lineView) (addSourceAct_within rfl rfl) fun _ _ _ h =>
    .bind fun _ => .bind fun _ => .bind' fun _ hn => .bind fun _ => .bind' fun _ hc => .bind' fun _ hs => .bind fun _ =>
      .pure (h.flown.addSource h.ordered (runOpen_eq (orRefuse_ok hn)).1 (orRefuse_ok hc) (eq_of_beq (require_ok hs)))

theorem advanceSourceAct_keeps : advanceSourceAct.Keeps RefsOk :=
  keeps_of_line (advanceSourceAct_unseen tie_lineView) (advanceSourceAct_within rfl rfl) fun _ _ _ h => by
    refine .bind fun _ => .bind' fun n hn => ?_
    split
    · exact .pure (h.flown.advanceSource (runOpen_eq (orRefuse_ok hn)).1 ‹_›)
    · exact .error _

theorem closeRunAct_keeps : closeRunAct.Keeps RefsOk :=
  keeps_of_line (closeRunAct_unseen tie_lineView) (closeRunAct_within rfl rfl) fun _ _ _ h => by
    refine .bind fun _ => .bind' fun n hn => ?_
    have run := (runOpen_eq (orRefuse_ok hn)).1
    split
    · rename_i empty
      rw [Bool.and_eq_true, List.isEmpty_iff, List.isEmpty_iff] at empty
      exact .pure (h.flown.closeEmpty run (by rw [Run.aloft, empty.1, empty.2]; rfl) _ _)
    · exact .pure (h.flown.drain run _)

theorem abortRunAct_keeps : abortRunAct.Keeps RefsOk :=
  keeps_of_line (abortRunAct_unseen tie_lineView) (abortRunAct_within rfl rfl) fun _ _ _ h =>
    .bind fun _ => .bind' fun _ hn => .pure (h.flown.abort (orRefuse_ok hn) _)

theorem Flown.clearSticky (h : Flown s) : Flown (s.withRun (s.tracker.run.map Run.clearSticky)) := by
  cases hr : s.tracker.run with
  | none => exact h.of_wing rfl hr.symm
  | some n => exact h.withRun (m := n.clearSticky) hr rfl rfl (.refl _)

theorem runStatusAct_keeps : runStatusAct.Keeps RefsOk := keeps_of_live fun _ _ s h => by
  refine .bind fun _ => ?_
  split
  · exact .pure (h.of_line (t := s.withRun _) rfl rfl rfl h.flown.clearSticky)
  all_goals exact .pure h

/-- A board at the head of its dispatch is of a present charge. -/
theorem LiveRefs.board_present (h : LiveRefs s) (hr : s.tracker.run = some n) {b : Board} (hb : b ∈ n.queueB) :
    ∃ c ∈ s.charges.entries, c.id = b.charge := by
  have aloft : b.charge ∈ s.aloft := by
    rw [aloft_of_run hr]
    exact List.mem_map_of_mem (List.mem_append_right _ hb)
  obtain ⟨c, hc, e, _⟩ := h.flown.flight.listed b.charge (.inr aloft)
  exact ⟨c, hc, e⟩

theorem boardGradeAct_keeps (lbsy : Bool) : (boardGradeAct lbsy).Keeps RefsOk := keeps_of_live fun _ _ s h => by
  refine .bind fun g => .bind' fun n hn => .bind fun _ => .bind' fun b hb => .pure ?_
  have run : s.tracker.run = some n := orRefuse_ok hn
  have queued := orRefuse_ok hb
  have sorted : LiveRefs (s.sortBoard lbsy n b g).1 := h.of_book (sortBoard_seen wing_bookView ..) (sortBoard_tracker ..)
    (h.refs.sortBoard (h.board_present run (List.mem_of_find?_eq_some queued)) lbsy n g)
  have tracker : (s.sortBoard lbsy n b g).1.tracker.run = some n := by rw [sortBoard_tracker, run]
  have dispatched (t : State) (d : Decision) : (t.dispatch n b d).packs = t.packs ∧ (t.dispatch n b d).lots = t.lots := by
    unfold State.dispatch
    dsimp only
    split <;> exact ⟨rfl, rfl⟩
  exact sorted.of_line (dispatch_seen tie_lineView ..) (dispatched _ _).1 (dispatched _ _).2
    (sorted.flown.dispatch tracker queued _)

/-! ## Starts, cuts and every other command -/

theorem restarted_tie (why : HoldReason) (c : Charge) : (c.restarted why).tie = c.tie := by
  cases hf : c.flags.htCertified <;> cases hs : c.state <;> simp [Charge.restarted, Charge.tie, hf, hs]

theorem restarted_grounded (why : HoldReason) (c : Charge) (h : c.state ≠ .planing → c.stats.inFlight = 0) :
    (c.restarted why).stats.inFlight = 0 := by
  cases hf : c.flags.htCertified <;> cases hs : c.state <;> simp [Charge.restarted, hf, hs] <;> exact h (by rw [hs]; nofun)

/-- The charges of a start are seen as they were by the references, and none has a board in flight. -/
theorem RestartedCharges.grounded {why : HoldReason} (h : RestartedCharges s t why) (hs : RefsOk s) :
    t.seen Charge.tie = s.seen Charge.tie ∧ ∀ c ∈ t.charges.entries, c.stats.inFlight = 0 := by
  rw [State.seen, h.charges]
  refine ⟨(List.map_map ..).trans (List.map_congr_left fun c _ => restarted_tie why c), fun c hc => ?_⟩
  obtain ⟨d, hd, rfl⟩ := List.mem_map.1 hc
  exact restarted_grounded why d (hs.grounded d hd)

theorem RefsOk.interrupted (h : RefsOk s) (hi : Interrupted s t) : RefsOk t := by
  have lots : t.lotLists = s.lotLists := by rw [State.lotLists, hi.lots]; rfl
  have seen : t.seen Charge.tie = s.seen Charge.tie ∧
      ∀ c ∈ t.charges.entries, c.state ≠ .planing → c.stats.inFlight = 0 := by
    rcases hi.charges with ⟨charges, _⟩ | ⟨why, restarted⟩
    · exact ⟨seen_of_charges charges, by rw [charges]; exact h.grounded⟩
    · obtain ⟨tie, none⟩ := restarted.grounded h
      exact ⟨tie, fun c hc _ => none c hc⟩
  refine refsOk_of_parts (h.referenced.of_view seen.1 hi.packs lots) (tie_kilnView.ordered h.keys.1 seen.1) seen.2
    fun running => ?_
  obtain ⟨run, why, restarted⟩ := hi.running running
  exact flown_of_none run (restarted.grounded h).2

theorem backupMonitorTrip_phase (h : exec .backupMonitorTrip s = .next t) : t.retention.phase = s.retention.phase := by
  cases h
  split <;> rfl

theorem exec_refsOk {i : Instr} (hs : RefsOk s) (h : exec i s = .next t) : RefsOk t := by
  have take {x : Port × Byte} (ht : takenBy i = some x) (ha : (actOf i).Keeps RefsOk) : RefsOk t :=
    take_keeps refsOk_blockInv ht ha hs h
  have live {x : Port × Byte} (ht : takenBy i = some x)
      (ha : ∀ p r s, LiveRefs s → Gives (fun x => LiveRefs x.1) (actOf i p r s)) : RefsOk t := take ht (keeps_of_live ha)
  have kilns (hseen : t.seen Charge.stand = s.seen Charge.stand) (hp : mayChange i .packs = false)
      (hl : mayChange i .lots = false) (hr : mayChange i .tracker = false) (ht : mayChange i .retention = false) : RefsOk t :=
    hs.of_view hseen (by rw [State.packLists, exec_blocks h .packs hp]; rfl)
      (by rw [State.lotLists, exec_blocks h .lots hl]; rfl) (by rw [exec_blocks h .tracker hr])
      (by rw [exec_blocks h .retention ht])
  have unseen {x : Port × Byte} (ht : takenBy i = some x) (ha : (actOf i).Unseen Charge.stand) :
      t.seen Charge.stand = s.seen Charge.stand := take_seen stand_kilnView ht ha hs.keys.1 h
  have sorts {x : Port × Byte} (ht : takenBy i = some x)
      (ha : ∀ p r s, Gives (fun x => ∃ y, x.1 = s.withTracker { s.tracker with sortMap := y }) (actOf i p r s)) : RefsOk t :=
    take ht fun p r s _ h x hx => by
      obtain ⟨y, e⟩ := ha p r s x hx
      rw [e]
      exact h.of_view rfl rfl rfl rfl rfl
  have event {f : State → State} (hf : s.retention.phase = .running → LiveRefs s → RefsOk (f s))
      (he : Machine.event f s = .next t) : RefsOk t :=
    event_keeps (Inv := RefsOk) hs (fun running => hf running (hs.live running)) he
  cases hr : resetsPorts i with
  | true =>
    rcases exec_resets hr h with rfl | ⟨eye, rfl⟩ | hi
    · exact hs
    · exact reset_refsOk.of_view rfl rfl rfl rfl rfl
    · exact hs.interrupted hi
  | false =>
    cases i with
    | defineCharge => exact live rfl defineChargeAct_live
    | setSamples => exact kilns (unseen rfl (setSamplesAct_unseen stand_kilnView)) rfl rfl rfl rfl
    | sampleWeights => exact kilns (unseen rfl (sampleWeightsAct_unseen stand_kilnView)) rfl rfl rfl rfl
    | load => exact kilns (unseen rfl loadAct_unseen) rfl rfl rfl rfl
    | unload => exact kilns (unseen rfl unloadAct_unseen) rfl rfl rfl rfl
    | start => exact kilns (unseen rfl (startRule_unseen stand_kilnView)) rfl rfl rfl rfl
    | hold => exact kilns (unseen rfl (holdRule_unseen stand_kilnView)) rfl rfl rfl rfl
    | resume => exact kilns (unseen rfl (resumeRule_unseen stand_kilnView)) rfl rfl rfl rfl
    | skipStep => exact kilns (unseen rfl skipStepRule_unseen) rfl rfl rfl rfl
    | stop => exact kilns (unseen rfl stopRule_unseen) rfl rfl rfl rfl
    | kilnMinuteExpiry k =>
      exact kilns (event_keeps (f := fun s => s.kilnMinute k) (Inv := fun u => u.seen Charge.stand = s.seen Charge.stand) rfl
        (fun _ => kilnMinute_seen hs.keys.1 k) h) rfl rfl rfl rfl
    | retireCharge => exact live rfl retireChargeAct_live
    | openRun => exact take rfl openRunAct_keeps
    | addSource => exact take rfl addSourceAct_keeps
    | advanceSource => exact take rfl advanceSourceAct_keeps
    | closeRun => exact take rfl closeRunAct_keeps
    | abortRun => exact take rfl abortRunAct_keeps
    | boardGrade p lbsy => exact take rfl (boardGradeAct_keeps lbsy)
    | putSortEntry =>
      exact sorts rfl fun _ _ _ => .bind fun _ => .bind fun _ => .bind fun _ => .pure ⟨_, rfl⟩
    | removeSortEntry =>
      exact sorts rfl fun _ _ _ => .bind fun _ => .bind fun _ => .bind fun _ => .pure ⟨_, rfl⟩
    | clearSortMap => exact sorts rfl fun _ _ _ => .bind fun _ => .pure ⟨_, rfl⟩
    | runStatus => exact take rfl runStatusAct_keeps
    | closeLot => exact live rfl closeLotAct_live
    | convertLot => exact live rfl convertLotAct_live
    | setBinTarget p lbsy => exact live rfl (setBinTargetAct_live lbsy)
    | closePack p lbsy => exact live rfl (closePackAct_live lbsy)
    | releasePack => exact live rfl releasePackAct_live
    | eyeEdge =>
      refine event (fun _ live => ?_) h
      have line := within_eyeRises (P := lineBlocks) rfl rfl s
      exact (live.of_line (eyeRises_seen tie_lineView s) (line.blocks .packs rfl) (line.blocks .lots rfl)
        (live.flown.eyeRises live.ordered)).refsOk
    | eyeFilteredFall =>
      exact event (f := fun s => s.withTracker { s.tracker with eye := false })
        (fun _ _ => hs.of_view rfl rfl rfl rfl rfl) h
    | meterFrame b e =>
      refine event (f := fun s => s.fifthByte ⟨b, e⟩) (fun _ live => ?_) h
      have line : Within lineBlocks s (s.fifthByte ⟨b, e⟩) := .ite (within_frameArrives rfl rfl s _) (.refl s)
      exact (live.of_line (fifthByte_seen tie_kilnView tie_lineView live.ordered _) (line.blocks .packs rfl)
        (line.blocks .lots rfl) (live.flown.fifthByte live.ordered _)).refsOk
    | meterByteReceived b e =>
      exact event (f := fun s => s.withTracker { s.tracker with receiver := receiveByte s.tracker.receiver ⟨b, e⟩ })
        (fun _ _ => hs.of_view rfl rfl rfl rfl rfl) h
    | meterIdleTimeout =>
      refine event (f := State.meterIdle) (fun _ live => ?_) h
      have line : Within lineBlocks s s.meterIdle := .ite (.refl s) (within_frameArrives rfl rfl s _)
      exact (live.of_line (meterIdle_seen tie_kilnView tie_lineView live.ordered) (line.blocks .packs rfl)
        (line.blocks .lots rfl) (live.flown.meterIdle live.ordered)).refsOk
    | busCycleComplete lbsy ld =>
      refine event (f := fun s => s.cycleEnd lbsy ld) (fun _ _ => ?_) h
      have engine := ((Within.refl s).cycleEnd (P := fun b => match b with | .packs | .label => true | _ => false) rfl rfl
        lbsy ld).blocks
      exact hs.of_view (seen_of_charges (engine .charges rfl)) (cycleEnd_packLists s lbsy ld)
        (by rw [State.lotLists, engine .lots rfl]; rfl) (by rw [engine .tracker rfl]) (by rw [engine .retention rfl])
    | backupMonitorTrip =>
      exact hs.of_eq (exec_blocks h .charges rfl) (exec_blocks h .packs rfl) (exec_blocks h .lots rfl)
        (exec_blocks h .tracker rfl) (backupMonitorTrip_phase h)
    | restart | powerOnReset | coldStart | warmStart | mainPowerFail => cases hr
    | _ =>
      exact hs.of_eq (exec_blocks h .charges rfl) (exec_blocks h .packs rfl) (exec_blocks h .lots rfl)
        (exec_blocks h .tracker rfl) (congrArg Retention.phase (exec_blocks h .retention rfl))

end

end Sys2Proof.Machine

end

section

open Sys2Proof Sys2Proof.Machine in
/-- Settles O59: each of the three invariants is kept by every command, and none looks at the queue. The reference counts and
the boards in flight are carried as `LiveRefs` while the part runs. -/
theorem everyStepKeepsSetpointsAndInUseCounts : Obligations.EveryStepKeepsSetpointsAndInUseCounts :=
  ⟨stepKeeps_of_exec (fun _ _ h => h.of_eq rfl rfl) exec_setpointsOk,
    stepKeeps_of_exec (fun _ _ h => h.of_library rfl rfl) exec_inUseOk,
    stepKeeps_of_exec (fun _ _ h => h.of_eq rfl rfl rfl rfl rfl) exec_refsOk⟩

end

section
/-! SUPPORT. The Charge Table within its capacity and in key order (R52): a view of its ids, which most commands do not see. -/

namespace Sys2Proof.Machine

theorem id_kilnView : KilnView Charge.id where
  id := ⟨id, fun _ => rfl⟩
  samples := fun _ _ => rfl
  flags := fun _ _ => rfl
  heat := fun _ _ => rfl
  working := fun _ _ _ _ => rfl

theorem id_lineView : LineView Charge.id where
  stats := fun _ _ => rfl
  flags := fun _ _ => rfl
  idle := fun _ _ _ _ => rfl

theorem id_bookView : BookView Charge.id := fun _ _ => rfl

/-- The Charge Table holds at most 32 charges, in key order (R52). -/
def ChargesFit (s : State) : Prop := s.charges.entries.length ≤ 32 ∧ s.Ordered

section

variable {s t : State} {c : Charge}

theorem chargesFit_blockInv : BlockInv ChargesFit := fun _ _ h => h

theorem ids_of_stand (h : t.seen Charge.stand = s.seen Charge.stand) : t.seen Charge.id = s.seen Charge.id := by
  have ids (u : State) : u.seen Charge.id = (u.seen Charge.stand).map fun y => y.1.1 := by
    rw [State.seen, State.seen, List.map_map]; rfl
  rw [ids, ids, h]

theorem ChargesFit.of_ids (h : ChargesFit s) (hi : t.seen Charge.id = s.seen Charge.id) : ChargesFit t := by
  have length : t.charges.entries.length = s.charges.entries.length := by
    simpa [State.seen] using congrArg List.length hi
  exact ⟨length ▸ h.1, id_kilnView.ordered h.2 hi⟩

/-- A charge joins while an entry is free (R56). -/
theorem ChargesFit.addCharge (h : ChargesFit s) (hf : s.chargeEntryFree = true) : ChargesFit (s.addCharge c) := by
  have room : s.charges.entries.length < 32 := of_decide_eq_true hf
  exact ⟨(length_keyPut c s.charges.entries).trans room, rising_keyPut c h.2⟩

theorem defineChargeAct_chargesFit : defineChargeAct.Keeps ChargesFit := fun _ _ _ _ h =>
  .bind fun _ => .bind fun _ => .bind' fun _ hf => .pure (h.addCharge (require_ok hf))

theorem convertLotAct_chargesFit : convertLotAct.Keeps ChargesFit := fun _ _ _ _ h =>
  .bind fun _ => .bind fun _ => .bind' fun _ hf => .pure
    ((h.addCharge (require_ok hf)).of_ids (dropRefs_seen id_bookView _ _))

theorem retireChargeAct_chargesFit : retireChargeAct.Keeps ChargesFit := fun _ _ _ _ h =>
  .bind fun id => .bind fun _ => .bind fun _ => .bind fun _ => .pure
    ⟨(length_keyErase id _).trans h.1, rising_keyErase id h.2⟩

theorem restarted_id (why : HoldReason) (c : Charge) : (c.restarted why).id = c.id :=
  congrArg Prod.fst (restarted_tie why c)

theorem ChargesFit.interrupted (h : ChargesFit s) (hi : Interrupted s t) : ChargesFit t := by
  rcases hi.charges with ⟨charges, _⟩ | ⟨why, restarted⟩
  · exact h.of_ids (seen_of_charges charges)
  · refine h.of_ids ?_
    rw [State.seen, restarted.charges]
    exact (List.map_map ..).trans (List.map_congr_left fun c _ => restarted_id why c)

theorem exec_chargesFit {i : Instr} (hs : ChargesFit s) (h : exec i s = .next t) : ChargesFit t := by
  have take {x : Port × Byte} (ht : takenBy i = some x) (ha : (actOf i).Keeps ChargesFit) : ChargesFit t :=
    take_keeps chargesFit_blockInv ht ha hs h
  have kilns {x : Port × Byte} (ht : takenBy i = some x) (ha : (actOf i).Unseen Charge.stand) : ChargesFit t :=
    hs.of_ids (ids_of_stand (take_seen stand_kilnView ht ha hs.2 h))
  have line {x : Port × Byte} (ht : takenBy i = some x) (ha : (actOf i).Unseen Charge.id) : ChargesFit t :=
    hs.of_ids (take_seen id_kilnView ht ha hs.2 h)
  have event {f : State → State} (hf : (f s).seen Charge.id = s.seen Charge.id) (he : Machine.event f s = .next t) :
      ChargesFit t := event_keeps hs (fun _ => hs.of_ids hf) he
  cases hr : resetsPorts i with
  | true =>
    rcases exec_resets hr h with rfl | ⟨eye, rfl⟩ | hi
    · exact hs
    · exact reset_capacitiesOk.charges
    · exact hs.interrupted hi
  | false =>
    cases i with
    | defineCharge => exact take rfl defineChargeAct_chargesFit
    | convertLot => exact take rfl convertLotAct_chargesFit
    | retireCharge => exact take rfl retireChargeAct_chargesFit
    | setSamples => exact line rfl (setSamplesAct_unseen id_kilnView)
    | sampleWeights => exact line rfl (sampleWeightsAct_unseen id_kilnView)
    | load => exact kilns rfl loadAct_unseen
    | unload => exact kilns rfl unloadAct_unseen
    | start => exact line rfl (startRule_unseen id_kilnView)
    | hold => exact line rfl (holdRule_unseen id_kilnView)
    | resume => exact line rfl (resumeRule_unseen id_kilnView)
    | skipStep => exact kilns rfl skipStepRule_unseen
    | stop => exact kilns rfl stopRule_unseen
    | kilnMinuteExpiry k => exact event (f := fun s => s.kilnMinute k) (ids_of_stand (kilnMinute_seen hs.2 k)) h
    | openRun => exact line rfl (openRunAct_unseen id_lineView)
    | addSource => exact line rfl (addSourceAct_unseen id_lineView)
    | advanceSource => exact line rfl (advanceSourceAct_unseen id_lineView)
    | closeRun => exact line rfl (closeRunAct_unseen id_lineView)
    | abortRun => exact line rfl (abortRunAct_unseen id_lineView)
    | boardGrade p lbsy => exact line rfl (boardGradeAct_unseen id_lineView id_bookView lbsy)
    | releasePack => exact line rfl (releasePackAct_unseen id_bookView)
    | eyeEdge => exact event (eyeRises_seen id_lineView s) h
    | meterFrame b e =>
      exact event (f := fun s => s.fifthByte ⟨b, e⟩) (fifthByte_seen id_kilnView id_lineView hs.2 _) h
    | meterIdleTimeout => exact event (f := State.meterIdle) (meterIdle_seen id_kilnView id_lineView hs.2) h
    | restart | powerOnReset | coldStart | warmStart | mainPowerFail => cases hr
    | _ => exact hs.of_ids (seen_of_charges (exec_blocks h .charges rfl))

end

end Sys2Proof.Machine

end

section
/-! SUPPORT. What any command does to the redry lots (R142 to R148), and what is kept where a board joins a record. -/

namespace Sys2Proof.Machine

/-- A property of the redry lots that every change of them keeps: a CLOSE LOT, a conversion, a board that joins a lot and a lot
that opens for its first board while an entry is free (R144 to R148). -/
structure LotInv (I : List Lot → Prop) : Prop where
  empty : I []
  closed : ∀ l n, I l → I (keyModify Lot.number n (fun x => { x with state := .closed }) l)
  erased : ∀ l n, I l → I (keyErase Lot.number n l)
  joined : ∀ l x charge volume, I l → x ∈ l → I (keyPut Lot.number (x.join charge volume) l)
  opened : ∀ l n species thickness charge volume, I l → l.length < Config.lotEntries →
    I (keyPut Lot.number ((openedLot n species thickness).join charge volume) l)

section

variable {I : List Lot → Prop} {s t : State}

theorem LotInv.handToLot (hI : LotInv I) (h : I s.lots.lots) (species thickness charge volume : Nat) :
    I (s.handToLot species thickness charge volume).1.lots.lots := by
  unfold State.handToLot
  split
  · rename_i x hx
    rw [joinLot_lots]
    exact hI.joined _ x charge volume h (List.mem_of_find?_eq_some hx)
  · split
    · rw [joinLot_lots]
      exact hI.opened _ _ _ _ _ _ h ‹_›
    · exact h

theorem LotInv.sortBoard (hI : LotInv I) (h : I s.lots.lots) (lbsy : Bool) (n : Run) (b : Board) (g : GradeReport) :
    I (s.sortBoard lbsy n b g).1.lots.lots := by
  rcases sortBoard_cases s lbsy n b g with e | ⟨sp, th, volume, e⟩ | ⟨bin, x, _, e⟩ <;> rw [e]
  · exact h
  · exact hI.handToLot h sp th b.charge volume
  · have same : (s.handToBin lbsy bin x).1.lots = s.lots := ((Within.refl s).handToBin
      (P := fun b => match b with | .charges | .packs | .label => true | _ => false) rfl rfl rfl lbsy bin x).blocks .lots rfl
    rwa [same]

theorem dispatch_records (s : State) (n : Run) (b : Board) (d : Decision) :
    (s.dispatch n b d).lots = s.lots ∧ (s.dispatch n b d).packs = s.packs ∧ (s.dispatch n b d).label = s.label := by
  unfold State.dispatch
  dsimp only
  split <;> exact ⟨rfl, rfl, rfl⟩

/-- BOARD GRADE ends in the dispatch of a board of the run, after its sort decision. -/
theorem boardGradeAct_gives {Q : State → Prop} {lbsy : Bool} (p : Port) (r : Request)
    (h : ∀ n b g d, s.tracker.run = some n → Q ((s.sortBoard lbsy n b g).1.dispatch n b d)) :
    Gives (fun x => Q x.1) (boardGradeAct lbsy p r s) :=
  .bind fun g => .bind' fun n hn => .bind fun _ => .bind fun b => .pure (h n b g _ (orRefuse_ok hn))

theorem exec_lots {i : Instr} (hI : LotInv I) (hs : I s.lots.lots) (h : exec i s = .next t) : I t.lots.lots := by
  have take {x : Port × Byte} (ht : takenBy i = some x) (ha : (actOf i).Keeps fun u => I u.lots.lots) : I t.lots.lots :=
    take_keeps (Inv := fun u => I u.lots.lots) (fun _ _ h => h) ht ha hs h
  cases hr : resetsPorts i with
  | true =>
    rcases exec_resets hr h with rfl | ⟨eye, rfl⟩ | hi
    · exact hs
    · exact hI.empty
    · exact hi.lots ▸ hs
  | false =>
    cases i with
    | boardGrade p lbsy =>
      refine take rfl fun p r _ _ h => boardGradeAct_gives (Q := fun u => I u.lots.lots) p r fun n b g d _ => ?_
      rw [(dispatch_records ..).1]
      exact hI.sortBoard h lbsy _ _ _
    | closeLot =>
      exact take rfl fun _ _ _ _ h => .bind fun n => .bind fun _ => .bind fun _ => .pure (hI.closed _ n h)
    | convertLot =>
      exact take rfl fun _ _ _ _ h => .bind fun n => .bind fun _ => .bind fun _ => .pure (hI.erased _ n h)
    | coldStart => cases hr
    | _ => exact (exec_blocks h .lots rfl : t.lots = s.lots) ▸ hs

end

/-! ## Instances -/

/-- At most 4 lots, in key order (R142). -/
theorem lotsFit_lotInv : LotInv fun l => l.length ≤ 4 ∧ Rising Lot.number l where
  empty := ⟨Nat.zero_le _, .nil⟩
  closed := fun _ n h => ⟨(length_keyModify ..).trans_le h.1,
    rising_keyModify (f := fun x => { x with state := .closed }) n (fun _ hn => hn) h.2⟩
  erased := fun l n h => ⟨(length_keyErase n l).trans h.1, rising_keyErase n h.2⟩
  joined := fun _ x charge volume h hx =>
    ⟨(length_keyPut_present (x.join charge volume) h.2 ⟨x, hx, rfl⟩).trans_le h.1, rising_keyPut _ h.2⟩
  opened := fun l _ _ _ _ _ h room => ⟨(length_keyPut _ l).trans room, rising_keyPut _ h.2⟩

theorem piecesOk_empty : PiecesOk [] 0 0 := ⟨List.nodup_nil, Nat.zero_le _, rfl⟩

/-- One more piece for a charge that is listed once. -/
theorem sum_pieces_bump {id : Nat} : ∀ {cs : List Contributor}, (namedBy cs).Nodup → id ∈ namedBy cs →
    ((cs.map fun c => if c.charge = id then { c with pieces := c.pieces + 1 } else c).map Contributor.pieces).sum =
      (cs.map Contributor.pieces).sum + 1
  | c :: cs, once, h => by
    obtain ⟨apart, rest⟩ := List.nodup_cons.1 once
    by_cases hc : c.charge = id
    · subst hc
      have others : (cs.map fun d => if d.charge = c.charge then { d with pieces := d.pieces + 1 } else d) = cs := by
        refine (List.map_congr_left fun d hd => if_neg fun e => apart ?_).trans (List.map_id _)
        exact e ▸ List.mem_map_of_mem hd
      simp only [List.map_cons, others, List.sum_cons, if_true]
      omega
    · have later : id ∈ namedBy cs := (List.mem_cons.1 h).resolve_left fun e => hc e.symm
      have ih := sum_pieces_bump rest later
      simp only [List.map_cons, List.sum_cons, if_neg hc, ih]
      omega

/-- A board of a listed charge is a piece of its contributor (R145, R158). -/
theorem joinPieces_listed {cs : List Contributor} {id : Nat} (h : id ∈ namedBy cs) (other : Nat) :
    joinPieces cs other id =
      (cs.map fun c => if c.charge = id then { c with pieces := c.pieces + 1 } else c, other) :=
  if_pos (lists_iff.2 h)

/-- A board of a charge that is not listed, while fewer than four are, lists it (R145, R158). -/
theorem joinPieces_unlisted {cs : List Contributor} {id : Nat} (h : id ∉ namedBy cs) (room : cs.length < 4) (other : Nat) :
    joinPieces cs other id = (cs ++ [⟨id, 1⟩], other) :=
  (if_neg (mt lists_iff.1 h)).trans (if_pos room)

/-- A board of a charge that finds no contributor entry is one of the other pieces (R145, R158). -/
theorem joinPieces_full {cs : List Contributor} {id : Nat} (h : id ∉ namedBy cs) (full : 4 ≤ cs.length) (other : Nat) :
    joinPieces cs other id = (cs, other + 1) :=
  (if_neg (mt lists_iff.1 h)).trans (if_neg (Nat.not_lt.2 full))

/-- A board that joins a record is one more piece of it (R145, R158). -/
theorem PiecesOk.join {cs : List Contributor} {other pieces : Nat} (h : PiecesOk cs other pieces) (id : Nat) :
    PiecesOk (joinPieces cs other id).1 (joinPieces cs other id).2 (pieces + 1) := by
  obtain ⟨once, few, sum⟩ := h
  have named : ((joinPieces cs other id).1.map Contributor.charge).Nodup := by
    rw [← namedBy, joinPieces_named]
    split
    · rename_i anew
      have unlisted : id ∉ namedBy cs := by
        simp only [joinLists, Bool.and_eq_true, Bool.not_eq_true'] at anew
        simp [← lists_iff, anew.1]
      exact List.nodup_append'.2 ⟨once, List.nodup_singleton _, by simpa using unlisted⟩
    · exact once
  refine ⟨named, ?_⟩
  by_cases listed : id ∈ namedBy cs
  · rw [joinPieces_listed listed]
    refine ⟨by simpa using few, ?_⟩
    rw [sum_pieces_bump once listed]
    omega
  · obtain room | full := Nat.lt_or_ge cs.length 4
    · rw [joinPieces_unlisted listed room]
      refine ⟨by simpa using room, ?_⟩
      simp only [List.map_append, List.map_cons, List.map_nil, List.sum_append, List.sum_singleton]
      omega
    · rw [joinPieces_full listed full]
      exact ⟨few, by rw [sum, Nat.add_assoc]⟩

/-- Every lot adds up (R142). -/
theorem lotsAddUp_lotInv : LotInv fun l => ∀ x ∈ l, PiecesOk x.contributors x.other x.pieces where
  empty := nofun
  closed := fun _ _ h x hx => by
    rcases mem_keyModify hx with ⟨hx, _⟩ | ⟨y, hy, _, rfl⟩
    · exact h x hx
    · exact h y hy
  erased := fun _ _ h x hx => h x (mem_keyErase.1 hx).1
  joined := fun _ x charge _ h hx y hy => by
    rcases mem_keyPut hy with rfl | hy
    · exact (h x hx).join charge
    · exact h y hy
  opened := fun _ _ _ _ charge _ h _ y hy => by
    rcases mem_keyPut hy with rfl | hy
    · exact piecesOk_empty.join charge
    · exact h y hy

end Sys2Proof.Machine

end

section
/-! SUPPORT. The label queue within its places (R162, R171), and the label engine's work as the accounts of the pack records see
it. -/

namespace Sys2Proof.Machine

/-- What adds up in a pack, under its id: its contributors and other pieces, its pieces, its metered and unmetered boards. -/
def Pack.account (q : Pack) : Nat × List Contributor × Nat × Nat × Nat × Nat :=
  (q.id, q.contributors, q.other, q.pieces, q.metered, q.unmetered)

/-- The pack records as they add up. -/
def State.accounts (s : State) : List (Nat × List Contributor × Nat × Nat × Nat × Nat) := s.packs.packs.map Pack.account

/-- The block that the label engine's own steps change. -/
def engineAlone : Block → Bool
  | .label => true
  | _ => false

/-- The label queue holds at most 8 jobs (R171). -/
def QueueFits (s : State) : Prop := s.label.queue.length ≤ 8

section

variable {s t : State} {lbsy : Bool}

/-! ## Accounts -/

theorem accounts_of_packs (h : t.packs = s.packs) : t.accounts = s.accounts := by rw [State.accounts, h]; rfl

theorem modifyPack_accounts {f : Pack → Pack} (hf : ∀ q, (f q).account = q.account) (s : State) (id : Nat) :
    (s.modifyPack id f).accounts = s.accounts := keyModify_map fun q _ _ => hf q

theorem accounts_of_engine (h : Within engineAlone s t) : t.accounts = s.accounts :=
  accounts_of_packs (h.blocks .packs rfl)

theorem queuePack_accounts (s : State) (lbsy : Bool) (id : Nat) : (s.queuePack lbsy id).accounts = s.accounts :=
  (accounts_of_engine ((Within.refl _).appendJob rfl lbsy _)).trans
    (modifyPack_accounts (f := fun q => { q with state := .labelQueued }) (fun _ => rfl) s id)

theorem fillQueue_accounts (s : State) (lbsy : Bool) : (s.fillQueue lbsy).accounts = s.accounts := by
  have queued : ∀ (l : List Nat) (s : State), (l.foldl (fun t id => t.queuePack lbsy id) s).accounts = s.accounts := by
    intro l
    induction l with
    | nil => exact fun s => rfl
    | cons id l ih => exact fun s => (ih _).trans (queuePack_accounts s lbsy id)
  exact queued _ s

theorem closePack_accounts (s : State) (lbsy : Bool) (id : Nat) (cause : CloseCause) :
    (s.closePack lbsy id cause).accounts = s.accounts := by
  have closed := modifyPack_accounts (f := fun q => q.closed cause s.clock.stamp) (fun _ => rfl) s id
  unfold State.closePack State.offerPack
  dsimp only
  split
  · exact (queuePack_accounts _ lbsy id).trans closed
  · exact closed

theorem finishPack_accounts (s : State) (j : Job) : (s.finishPack j).accounts = s.accounts := by
  unfold State.finishPack
  split
  · exact modifyPack_accounts (f := fun q => { q with state := .labelled, serial := j.serial }) (fun _ => rfl) s j.pack
  · exact modifyPack_accounts (f := fun q => { q with reprints := satInc max8 q.reprints }) (fun _ => rfl) s j.pack

theorem completeJob_accounts (s : State) (lbsy : Bool) (j : Job) (rest : List Job) :
    (s.completeJob lbsy j rest).accounts = s.accounts := by
  have filled : (((s.finishPack j).withLabel { s.label with queue := rest }).fillQueue lbsy).accounts = s.accounts :=
    (fillQueue_accounts _ lbsy).trans (finishPack_accounts s j)
  unfold State.completeJob
  dsimp only
  split
  · exact (accounts_of_engine ((Within.refl _).startHead rfl lbsy)).trans filled
  · exact filled

theorem unqueued_account (q : Pack) : q.unqueued.account = q.account := by
  unfold Pack.unqueued
  split <;> rfl

theorem unqueued_accounts (l : List Pack) : (l.map Pack.unqueued).map Pack.account = l.map Pack.account :=
  (List.map_map ..).trans (List.map_congr_left fun q _ => unqueued_account q)

/-! ## The queue -/

theorem QueueFits.of_label (h : QueueFits s) (hl : t.label.queue = s.label.queue) : QueueFits t :=
  (congrArg List.length hl).trans_le h

theorem beginCycle_queue (s : State) (lbsy : Bool) : (s.beginCycle lbsy).label.queue = s.label.queue := by
  unfold State.beginCycle
  split <;> rfl

theorem startHead_queue_length (s : State) (lbsy : Bool) : (s.startHead lbsy).label.queue.length = s.label.queue.length := by
  unfold State.startHead
  split
  · rfl
  · rename_i j rest hq
    rw [beginCycle_queue, hq]
    rfl

theorem appendJob_queue_length (s : State) (lbsy : Bool) (j : Job) :
    (s.appendJob lbsy j).label.queue.length = s.label.queue.length + 1 := by
  unfold State.appendJob
  dsimp only
  split
  · rw [startHead_queue_length]
    exact List.length_append
  · exact List.length_append

theorem queuePack_queue_length (s : State) (lbsy : Bool) (id : Nat) :
    (s.queuePack lbsy id).label.queue.length = s.label.queue.length + 1 := appendJob_queue_length ..

theorem queueAll_queue_length : ∀ (l : List Nat) (s : State),
    (l.foldl (fun t id => t.queuePack lbsy id) s).label.queue.length = s.label.queue.length + l.length
  | [], _ => rfl
  | id :: l, s => by
    rw [List.foldl_cons, queueAll_queue_length l, queuePack_queue_length, List.length_cons]
    omega

/-- The CLOSED packs enter while a place is left (R162). -/
theorem QueueFits.fillQueue (h : QueueFits s) (lbsy : Bool) : QueueFits (s.fillQueue lbsy) := by
  have entering : (s.closedPacks.take (Config.labelPlaces - s.label.queue.length)).length ≤ 8 - s.label.queue.length :=
    List.length_take_le ..
  unfold QueueFits at h ⊢
  rw [State.fillQueue, queueAll_queue_length]
  omega

theorem QueueFits.closePack (h : QueueFits s) (lbsy : Bool) (id : Nat) (cause : CloseCause) :
    QueueFits (s.closePack lbsy id cause) := by
  unfold State.closePack State.offerPack
  dsimp only
  split
  · rename_i room
    unfold QueueFits
    rw [queuePack_queue_length]
    exact room
  · exact h

theorem QueueFits.startHead (h : QueueFits s) (lbsy : Bool) : QueueFits (s.startHead lbsy) :=
  (startHead_queue_length s lbsy).trans_le h

theorem QueueFits.completeJob {j : Job} {rest : List Job} (h : rest.length ≤ 8) (lbsy : Bool) :
    QueueFits (s.completeJob lbsy j rest) := by
  have filled : QueueFits (((s.finishPack j).withLabel { s.label with queue := rest }).fillQueue lbsy) :=
    QueueFits.fillQueue (s := (s.finishPack j).withLabel { s.label with queue := rest }) h lbsy
  have after (e : LabelEngine) : e.afterJob.queue = e.queue := by
    unfold LabelEngine.afterJob
    split <;> rfl
  have ended : QueueFits ((((s.finishPack j).withLabel { s.label with queue := rest }).fillQueue lbsy).withLabel
      (((s.finishPack j).withLabel { s.label with queue := rest }).fillQueue lbsy).label.afterJob) :=
    (congrArg List.length (after _)).trans_le filled
  unfold State.completeJob
  dsimp only
  split
  · exact ended.startHead lbsy
  · exact ended

/-! ## The end of a cycle -/

theorem verify_tables (s : State) (lbsy : Bool) (bs : List Byte) :
    (s.verify lbsy bs).accounts = s.accounts ∧ (QueueFits s → QueueFits (s.verify lbsy bs)) := by
  unfold State.verify
  dsimp only
  split
  · exact ⟨rfl, fun h => h⟩
  · rename_i j rest hq
    split
    · refine ⟨completeJob_accounts (s.withLabel _) lbsy j rest, fun h => .completeJob ?_ lbsy⟩
      have whole : (j :: rest).length ≤ 8 := hq ▸ h
      exact Nat.le_of_succ_le whole
    · exact ⟨rfl, fun h => h⟩

theorem fieldEnd_queue (s : State) (lbsy : Bool) {next : LabelEngine} (h : next.queue = s.label.queue) :
    (s.fieldEnd lbsy next).label.queue = s.label.queue := by
  unfold State.fieldEnd
  split
  · rfl
  · exact (beginCycle_queue _ lbsy).trans h

theorem sendNext_queue (s : State) (lbsy : Bool) (k : Nat) : (s.sendNext lbsy k).label.queue = s.label.queue := by
  unfold State.sendNext
  split
  · exact fieldEnd_queue s lbsy rfl
  · split
    · exact beginCycle_queue ..
    · exact fieldEnd_queue s lbsy rfl

theorem sendNext_within (s : State) (lbsy : Bool) (k : Nat) : Within engineAlone s (s.sendNext lbsy k) :=
  .ite ((Within.refl s).fieldEnd rfl lbsy _)
    (.ite (((Within.refl s).withLabel rfl _).beginCycle rfl lbsy) ((Within.refl s).fieldEnd rfl lbsy _))

theorem readNext_tables (s : State) (lbsy : Bool) (ld : Byte) :
    (s.readNext lbsy ld).accounts = s.accounts ∧ (QueueFits s → QueueFits (s.readNext lbsy ld)) := by
  unfold State.readNext
  split
  · exact ⟨accounts_of_engine (((Within.refl s).withLabel rfl _).beginCycle rfl lbsy),
      fun h => h.of_label (beginCycle_queue _ lbsy)⟩
  · exact verify_tables s lbsy _

/-- The end of a bus cycle keeps the pack records' accounts and the queue within its places (R179, R180). -/
theorem cycleEnd_tables (s : State) (lbsy : Bool) (ld : Byte) :
    (s.cycleEnd lbsy ld).accounts = s.accounts ∧ (QueueFits s → QueueFits (s.cycleEnd lbsy ld)) := by
  unfold State.cycleEnd
  split
  · dsimp only
    split
    · exact ⟨accounts_of_engine (sendNext_within ..), fun h => h.of_label (sendNext_queue ..)⟩
    · exact readNext_tables (s.withLabel _) lbsy ld
  · exact ⟨rfl, fun h => h⟩

end

/-! ## Commands that reset every port -/

/-- What a RESTART, a warm start and a fall of the supplies leave of the tables that they do not empty: the accounts of the pack
records, a label queue that stands or was filled again, RESTART records behind the trace as it was, and the sort map. -/
structure ResetTables (s t : State) : Prop where
  packs : t.accounts = s.accounts
  queue : t.label.queue = s.label.queue ∨ QueueFits t
  trace : ∃ (u : State) (l : List (KilnNo × Nat)), u.trace = s.trace ∧ t.trace = (u.restartRecords l).trace
  tracker : t.tracker = s.tracker ∨ ∃ eye, t.tracker = { Tracker.cold eye with sortMap := s.tracker.sortMap }

section

variable {s t : State} {ports : Ports} {claims : Claims} {retention : Retention} {why : HoldReason} {eye lbsy : Bool}

theorem resetTables_of_eq (hp : t.packs = s.packs) (hl : t.label.queue = s.label.queue) (ht : t.trace = s.trace)
    (hr : t.tracker = s.tracker) : ResetTables s t :=
  ⟨accounts_of_packs hp, .inl hl, ⟨s, [], rfl, ht⟩, .inl hr⟩

theorem restartBlocks_tables :
    ResetTables s ((s.started ports claims retention).restartBlocks why eye lbsy) := by
  have blocks : RestartedBlocks s ((s.started ports claims retention).restartBlocks why eye lbsy) why eye lbsy :=
    restartBlocks_blocks
  obtain ⟨u, hu, packs, label⟩ := blocks.label
  refine ⟨?_, .inr ?_, ⟨s.rebuiltBlocks ports claims retention why eye lbsy, _, rfl, by rw [restartBlocks_eq]⟩,
    .inr ⟨eye, blocks.tracker⟩⟩
  · rw [accounts_of_packs packs, hu]
    exact (fillQueue_accounts _ lbsy).trans (unqueued_accounts s.packs.packs)
  · rw [QueueFits, label, hu]
    exact QueueFits.fillQueue (Nat.zero_le _) lbsy

theorem warmCut_tables (s : State) (charges packs : Bool) (n : Nat) : ResetTables s (s.warmCut charges packs n) := by
  have still := warmCut_eq s packs n charges
  refine ⟨?_, .inl (by rw [still]), ?_, .inl (by rw [still])⟩
  · rw [State.accounts, warmCut_packs]
    split
    · exact unqueued_accounts s.packs.packs
    · rfl
  · cases charges with
    | false => exact ⟨s, [], rfl, (warmCut_idle s packs n).2.2⟩
    | true => exact ⟨s.restartCharges .power, _, rfl, by cases packs <;> rfl⟩

theorem exec_resets_tables {c : Instr} (hr : resetsPorts c = true) (h : exec c s = .next t) :
    (∃ eye, t = s.coldStarted eye) ∨ ResetTables s t := by
  cases c with
  | restart p eye lbsy =>
    rcases exec_restart_cases h with rfl | ⟨r, rfl⟩
    · exact .inr (resetTables_of_eq rfl rfl rfl rfl)
    · rw [restarted_eq, restartPorts_started]
      exact .inr restartBlocks_tables
  | powerOnReset => cases h; exact .inr (resetTables_of_eq rfl rfl rfl rfl)
  | coldStart eye cut =>
    rcases exec_coldStart_eq eye cut s with e | e <;> rw [e] at h <;> cases h
    · exact .inr (resetTables_of_eq rfl rfl rfl rfl)
    · exact .inl ⟨eye, rfl⟩
  | warmStart eye lbsy e =>
    rcases exec_warmStart_cases h with rfl | rfl | ⟨charges, packs, n, rfl⟩
    · exact .inr (resetTables_of_eq rfl rfl rfl rfl)
    · rw [warmStarted_started]
      exact .inr restartBlocks_tables
    · exact .inr (warmCut_tables s charges packs n)
  | mainPowerFail low =>
    by_cases hp : s.retention.phase = .off
    · rw [exec_mainPowerFail_off hp] at h
      cases h
      exact .inr (resetTables_of_eq rfl rfl rfl rfl)
    · rw [exec_mainPowerFail_on hp] at h
      cases h
      exact .inr (resetTables_of_eq rfl rfl rfl rfl)
  | _ => cases hr

end

end Sys2Proof.Machine

end

section
/-! SUPPORT. What any command does to the pack records (R154 to R165), and the label queue under every command. -/

namespace Sys2Proof.Machine

/-- A property of the pack records that every change of them keeps: one that leaves their accounts, a release, a board added to
a pack, and a pack that opens while an entry is free (R156 to R165). -/
structure PackInv (I : List Pack → Prop) : Prop where
  empty : I []
  worked : ∀ l m, m.map Pack.account = l.map Pack.account → I l → I m
  erased : ∀ l id, I l → I (keyErase Pack.id id l)
  added : ∀ l q b, I l → q ∈ l → I (keyModify Pack.id q.id (fun _ => q.add b) l)
  opened : ∀ l id bin key time, I l → l.length < Config.packEntries → I (keyPut Pack.id (openedPack id bin key time) l)

section

variable {I : List Pack → Prop} {s t : State}

theorem PackInv.of_accounts (hI : PackInv I) (h : I s.packs.packs) (ha : t.accounts = s.accounts) : I t.packs.packs :=
  hI.worked _ _ ha h

theorem PackInv.addBoard (hI : PackInv I) (h : I s.packs.packs) {q : Pack} (hq : q ∈ s.packs.packs) (lbsy : Bool)
    (b : HandedBoard) : I (s.addBoard lbsy q b).packs.packs := by
  have added : I (s.boardAdded q b).packs.packs := by
    rw [boardAdded_packs]
    exact hI.added _ q b h hq
  rw [addBoard_eq]
  split
  · exact hI.of_accounts added (closePack_accounts ..)
  · exact added

theorem PackInv.openForBoard (hI : PackInv I) (h : I s.packs.packs) (lbsy : Bool) (bin : Nat) (b : HandedBoard) :
    I (s.openForBoard lbsy bin b).1.packs.packs := by
  unfold State.openForBoard
  split
  · have opened := hI.opened _ s.nextPackId bin b.key s.clock.stamp h ‹_›
    exact hI.addBoard (s := s.withPacks { s.packs with
        packs := keyPut Pack.id (openedPack s.nextPackId bin b.key s.clock.stamp) s.packs.packs, lastId := s.nextPackId })
      opened (keyFind_mem (keyFind_keyPut_same ..)) lbsy b
  · unfold State.refuseBoard
    dsimp only
    split <;> exact h

theorem PackInv.handToBin (hI : PackInv I) (h : I s.packs.packs) (lbsy : Bool) (bin : Nat) (b : HandedBoard) :
    I (s.handToBin lbsy bin b).1.packs.packs := by
  unfold State.handToBin
  split
  · rename_i q hq
    split
    · exact hI.addBoard h (List.mem_of_find?_eq_some hq) lbsy b
    · exact hI.openForBoard (hI.of_accounts h (closePack_accounts s lbsy q.id .keyChange)) lbsy bin b
  · exact hI.openForBoard h lbsy bin b

theorem PackInv.sortBoard (hI : PackInv I) (h : I s.packs.packs) (lbsy : Bool) (n : Run) (b : Board) (g : GradeReport) :
    I (s.sortBoard lbsy n b g).1.packs.packs := by
  rcases sortBoard_cases s lbsy n b g with e | ⟨sp, th, volume, e⟩ | ⟨bin, x, _, e⟩ <;> rw [e]
  · exact h
  · have same : (s.handToLot sp th b.charge volume).1.packs = s.packs := ((Within.refl s).handToLot
      (P := fun b => match b with | .charges | .lots => true | _ => false) rfl rfl sp th b.charge volume).blocks .packs rfl
    rwa [same]
  · exact hI.handToBin h lbsy bin x

theorem exec_packs {i : Instr} (hI : PackInv I) (hs : I s.packs.packs) (h : exec i s = .next t) : I t.packs.packs := by
  have take {x : Port × Byte} (ht : takenBy i = some x) (ha : (actOf i).Keeps fun u => I u.packs.packs) : I t.packs.packs :=
    take_keeps (Inv := fun u => I u.packs.packs) (fun _ _ h => h) ht ha hs h
  cases hr : resetsPorts i with
  | true =>
    rcases exec_resets_tables hr h with ⟨eye, rfl⟩ | tables
    · exact hI.empty
    · exact hI.of_accounts hs tables.packs
  | false =>
    cases i with
    | boardGrade p lbsy =>
      refine take rfl fun p r _ _ h => boardGradeAct_gives (Q := fun u => I u.packs.packs) p r fun n b g d _ => ?_
      rw [(dispatch_records ..).2.1]
      exact hI.sortBoard h lbsy _ _ _
    | setBinTarget p lbsy =>
      refine take rfl fun _ _ _ _ h => .bind fun _ => .bind fun _ => .pure ?_
      dsimp only
      split
      · exact hI.of_accounts h (closePack_accounts ..)
      · exact h
    | closePack p lbsy =>
      exact take rfl fun _ _ _ _ h => .bind fun _ => .bind fun _ => .pure (hI.of_accounts h (closePack_accounts ..))
    | releasePack =>
      exact take rfl fun _ _ _ _ h =>
        .bind fun id => .bind fun _ => .bind fun _ => .bind fun _ => .pure (hI.erased _ id h)
    | busCycleComplete lbsy ld =>
      exact event_keeps (Inv := fun u => I u.packs.packs) (f := fun s => s.cycleEnd lbsy ld) hs
        (fun _ => hI.of_accounts hs (cycleEnd_tables s lbsy ld).1) h
    | restart | coldStart | warmStart => cases hr
    | _ => exact (exec_blocks h .packs rfl : t.packs = s.packs) ▸ hs

end

/-! ## Instances -/

/-- At most 64 packs, in key order (R154). -/
theorem packsFit_packInv : PackInv fun l => l.length ≤ 64 ∧ Rising Pack.id l where
  empty := ⟨Nat.zero_le _, .nil⟩
  worked := fun l m hm h => ⟨by simpa using (congrArg List.length hm).trans_le (by simpa using h.1),
    rising_of_map (v := Pack.account) (g := Prod.fst) (fun _ => rfl) h.2 hm⟩
  erased := fun l id h => ⟨(length_keyErase id l).trans h.1, rising_keyErase id h.2⟩
  added := fun _ q b h _ => ⟨(length_keyModify ..).trans_le h.1,
    rising_keyModify (f := fun _ => q.add b) q.id (fun _ _ => congrArg Prod.fst (add_listing q b)) h.2⟩
  opened := fun l _ _ _ _ h room => ⟨(length_keyPut _ l).trans room, rising_keyPut _ h.2⟩

/-- A pack adds up, and its metered and unmetered boards are its pieces (R155). -/
def Pack.AddsUp (q : Pack) : Prop := PiecesOk q.contributors q.other q.pieces ∧ q.metered + q.unmetered = q.pieces

/-- A board added to a pack is one more piece, metered or unmetered (R158). -/
theorem Pack.AddsUp.add {q : Pack} (h : q.AddsUp) (b : HandedBoard) : (q.add b).AddsUp := by
  obtain ⟨pieces, metered⟩ := h
  have joined := pieces.join b.charge
  unfold Pack.add Pack.meter
  cases b.reading with
  | none => exact ⟨joined, by dsimp only; omega⟩
  | some v => exact ⟨joined, by dsimp only; omega⟩

theorem Pack.AddsUp.of_account {q r : Pack} (h : q.AddsUp) (ha : q.account = r.account) : r.AddsUp := by
  obtain ⟨_, contributors, other, pieces, metered, unmetered⟩ := by simpa only [Pack.account, Prod.ext_iff] using ha
  unfold Pack.AddsUp at h ⊢
  rwa [← contributors, ← other, ← pieces, ← metered, ← unmetered]

/-- Every pack adds up (R155). -/
theorem packsAddUp_packInv : PackInv fun l => ∀ q ∈ l, q.AddsUp where
  empty := nofun
  worked := fun _ _ hm h _ hr => by
    obtain ⟨q, hq, same⟩ := exists_mem_of_map_eq hm hr
    exact (h q hq).of_account same
  erased := fun _ _ h q hq => h q (mem_keyErase.1 hq).1
  added := fun _ q b h hq r hr => by
    rcases mem_keyModify hr with ⟨hr, _⟩ | ⟨_, _, _, rfl⟩
    · exact h r hr
    · exact (h q hq).add b
  opened := fun _ _ _ _ _ h _ q hq => by
    rcases mem_keyPut hq with rfl | hq
    · exact ⟨piecesOk_empty, rfl⟩
    · exact h q hq

/-! ## The label queue under every command -/

section

variable {s t : State}

theorem QueueFits.addBoard (h : QueueFits s) (lbsy : Bool) (q : Pack) (b : HandedBoard) : QueueFits (s.addBoard lbsy q b) := by
  have added : QueueFits (s.boardAdded q b) := by
    unfold State.boardAdded
    split <;> exact h
  rw [addBoard_eq]
  split
  · exact added.closePack lbsy q.id _
  · exact added

theorem QueueFits.openForBoard (h : QueueFits s) (lbsy : Bool) (bin : Nat) (b : HandedBoard) :
    QueueFits (s.openForBoard lbsy bin b).1 := by
  unfold State.openForBoard
  split
  · exact QueueFits.addBoard (by exact h) lbsy _ b
  · unfold State.refuseBoard
    dsimp only
    split <;> exact h

theorem QueueFits.handToBin (h : QueueFits s) (lbsy : Bool) (bin : Nat) (b : HandedBoard) :
    QueueFits (s.handToBin lbsy bin b).1 := by
  unfold State.handToBin
  split
  · split
    · exact h.addBoard lbsy _ b
    · exact (h.closePack lbsy _ .keyChange).openForBoard lbsy bin b
  · exact h.openForBoard lbsy bin b

theorem QueueFits.sortBoard (h : QueueFits s) (lbsy : Bool) (n : Run) (b : Board) (g : GradeReport) :
    QueueFits (s.sortBoard lbsy n b g).1 := by
  rcases sortBoard_cases s lbsy n b g with e | ⟨sp, th, volume, e⟩ | ⟨bin, x, _, e⟩ <;> rw [e]
  · exact h
  · exact h.of_label (congrArg LabelEngine.queue (((Within.refl s).handToLot
      (P := fun b => match b with | .charges | .lots => true | _ => false) rfl rfl sp th b.charge volume).blocks .label rfl))
  · exact h.handToBin lbsy bin x

theorem haltRequested_queue {e f : LabelEngine} (h : e.haltRequested = some f) : f.queue = e.queue := by
  unfold LabelEngine.haltRequested at h
  split at h
  · cases h; rfl
  · split at h <;> cases h; rfl
  · split at h <;> cases h; rfl
  · cases h

theorem QueueFits.resumed (h : QueueFits s) {lbsy : Bool} (hr : s.resumed lbsy = some t) : QueueFits t := by
  unfold State.resumed at hr
  split at hr
  · split at hr <;> cases hr
    · exact h
    · exact h.startHead lbsy
  · split at hr <;> cases hr; exact h
  · split at hr <;> cases hr; exact h
  · cases hr

theorem exec_queueFits {i : Instr} (hs : QueueFits s) (h : exec i s = .next t) : QueueFits t := by
  have take {x : Port × Byte} (ht : takenBy i = some x) (ha : (actOf i).Keeps QueueFits) : QueueFits t :=
    take_keeps (fun _ _ h => h) ht ha hs h
  have event {f : State → State} (hf : QueueFits (f s)) (he : Machine.event f s = .next t) : QueueFits t :=
    event_keeps hs (fun _ => hf) he
  cases hr : resetsPorts i with
  | true =>
    rcases exec_resets_tables hr h with ⟨eye, rfl⟩ | tables
    · exact reset_capacitiesOk.labelQueue
    · exact tables.queue.elim hs.of_label id
  | false =>
    cases i with
    | boardGrade p lbsy =>
      refine take rfl fun p r _ _ h => boardGradeAct_gives p r fun n b g d _ => ?_
      exact (h.sortBoard lbsy n b g).of_label (congrArg LabelEngine.queue (dispatch_records ..).2.2)
    | setBinTarget p lbsy =>
      refine take rfl fun _ _ _ _ h => .bind fun _ => .bind fun _ => .pure ?_
      dsimp only
      split
      · exact QueueFits.closePack (s := State.setTarget _ _ _) h lbsy _ _
      · exact h
    | closePack p lbsy =>
      exact take rfl fun _ _ _ _ h => .bind fun _ => .bind fun _ => .pure (h.closePack lbsy _ _)
    | reprint p lbsy =>
      refine take rfl fun _ _ _ _ _ => .bind fun _ => .bind fun _ => .bind fun _ => .bind fun _ => .bind' fun _ room => .pure ?_
      exact (appendJob_queue_length ..).trans_le (of_decide_eq_true (require_ok room))
    | busCycleComplete lbsy ld => exact event (f := fun s => s.cycleEnd lbsy ld) ((cycleEnd_tables s lbsy ld).2 hs) h
    | lbsyFall =>
      refine event (f := State.busyFalls) ?_ h
      unfold State.busyFalls
      split <;> exact hs
    | printerTimeout =>
      refine event (f := State.busyTimeout) ?_ h
      unfold State.busyTimeout
      split <;> exact hs
    | haltPrinter =>
      exact take rfl fun _ _ _ _ h =>
        .bind fun _ => .bind' fun _ he => .pure (h.of_label (haltRequested_queue (orRefuse_ok he)))
    | resumePrinter p lbsy =>
      exact take rfl fun _ _ _ _ h => .bind fun _ => .bind' fun _ ht => .pure (h.resumed (orRefuse_ok ht))
    | restart | powerOnReset | coldStart | warmStart | mainPowerFail => cases hr
    | _ => exact hs.of_label (congrArg LabelEngine.queue (exec_blocks h .label rfl))

end

end Sys2Proof.Machine

end

section
/-! SUPPORT. What any command does to the trace log (R186 to R191): records are written under the next sequence, and the mark is
set. -/

namespace Sys2Proof.Machine

/-- A property of the trace log that every write and every change of the mark keep (R188, R191). -/
structure TraceInv (I : TraceLog → Prop) : Prop where
  empty : I .cold
  written : ∀ g x, x.seq = g.next → I g → I (g.ready.place x)
  marked : ∀ g m, I g → I { g with mark := m }

section

variable {I : TraceLog → Prop} {s t : State} {k : KilnNo} {id : Nat}

theorem raiseIf_trace (s : State) (b : Bool) (c : Cause) : (s.raiseIf b c).trace = s.trace := by
  rw [State.raiseIf_eq]; rfl

theorem TraceInv.writeTrace (hI : TraceInv I) (h : I s.trace) (k : KilnNo) (id : Nat) (kind : TraceKind) :
    I (s.writeTrace k id kind).trace := by
  rw [State.writeTrace_eq]
  exact hI.written _ _ rfl h

theorem TraceInv.restartRecords (hI : TraceInv I) : ∀ (l : List (KilnNo × Nat)) {s : State}, I s.trace →
    I (s.restartRecords l).trace
  | [], _, h => h
  | x :: l, _, h => hI.restartRecords l (hI.writeTrace h x.1 x.2 .restart)

theorem TraceInv.kilnChange (hI : TraceInv I) (h : I s.trace) (k : KilnNo) (id : Nat) (kl : Kiln) (f : Charge → Charge)
    (kind : TraceKind) : I (s.kilnChange k id kl f kind).trace :=
  hI.writeTrace (s := ((s.setKiln k kl).modifyCharge id f).raiseAll .kilnPhase) h k id kind

theorem TraceInv.applyChange (hI : TraceInv I) (h : I s.trace) (k : KilnNo) (c : Charge) (x : Schedule) (ch : Change)
    (more : Charge → Charge) (kind : TraceKind) : I (s.applyChange k c x ch more kind).trace := by
  have returned : (s.returnSchedule c ch).trace = s.trace := by
    unfold State.returnSchedule
    split <;> rfl
  exact hI.kilnChange (returned ▸ h) k c.id _ _ kind

theorem TraceInv.storeReport (hI : TraceInv I) (h : I s.trace) (k : KilnNo) (id : Nat) (rep : KilnReport) :
    I (s.storeReport k id rep).trace := by
  unfold State.storeReport
  dsimp only
  split
  · exact hI.writeTrace (by exact h) k id .staleOff
  · exact h

/-! ## A minute -/

theorem TraceInv.minuteAge (hI : TraceInv I) (h : I s.trace) (k : KilnNo) (id : Nat) : I (minuteAge k id s).trace := by
  unfold Machine.minuteAge
  split
  · exact hI.writeTrace (by exact h) k id .staleOn
  · exact h

theorem TraceInv.minuteDeviation (hI : TraceInv I) (h : I s.trace) (k : KilnNo) (id : Nat) (st : ChargeState) :
    I (minuteDeviation k id st s).trace := by
  unfold Machine.minuteDeviation State.setDeviation
  split
  · split
    · exact h
    · exact hI.writeTrace (by exact h) k id _
  · exact h

theorem TraceInv.minuteHeat (hI : TraceInv I) (h : I s.trace) (k : KilnNo) (c : Charge) : I (minuteHeat k c s).trace := by
  unfold Machine.minuteHeat
  split
  · exact h
  · split
    · split
      · exact hI.writeTrace (by exact h) k c.id .ht
      · exact h
    · exact h

theorem minuteRamp_trace (k : KilnNo) (st : ChargeState) (x : Schedule) (s : State) :
    (minuteRamp k st x s).trace = s.trace := by
  unfold minuteRamp
  split <;> rfl

theorem minuteOvertime_trace (k : KilnNo) (st : ChargeState) (x : Schedule) (s : State) :
    (minuteOvertime k st x s).trace = s.trace := by
  unfold minuteOvertime
  split <;> rfl

theorem TraceInv.minuteBefore (hI : TraceInv I) (h : I s.trace) (k : KilnNo) (c : Charge) (x : Schedule) :
    I (minuteBefore k c x s).trace := by
  rw [Machine.minuteBefore, minuteOvertime_trace]
  refine hI.minuteHeat ?_ k c
  rw [minuteRamp_trace]
  exact hI.minuteDeviation (s := minuteCount k c.state (Machine.minuteAge k c.id s)) (hI.minuteAge h k c.id) k c.id c.state

theorem TraceInv.minuteTrigger (hI : TraceInv I) (h : I s.trace) (k : KilnNo) (c : Charge) (x : Schedule) :
    I (minuteTrigger k c x s).trace := by
  unfold Machine.minuteTrigger
  split
  · split
    · exact hI.applyChange h k c x _ _ _
    · exact h
  · exact h

theorem TraceInv.minuteChart (hI : TraceInv I) (h : I s.trace) (k : KilnNo) (id : Nat) : I (minuteChart k id s).trace := by
  unfold Machine.minuteChart
  split
  · split
    · exact hI.writeTrace (by exact h) k id .chart
    · exact h
  · exact h

theorem TraceInv.kilnMinute (hI : TraceInv I) (h : I s.trace) (k : KilnNo) : I (s.kilnMinute k).trace := by
  unfold State.kilnMinute
  split
  · rename_i c _
    split
    · rename_i x _
      split
      · rw [minuteParts_eq]
        exact hI.minuteChart (hI.minuteTrigger (hI.minuteBefore h k c x) k c x) k c.id
      · exact h
    · exact h
  · exact h

/-! ## Every command -/

theorem TraceInv.unloadLoaded (hI : TraceInv I) (h : I s.trace) (k : KilnNo) (c : Charge) :
    I (s.unloadLoaded k c).trace := by
  unfold State.unloadLoaded
  refine hI.writeTrace ?_ k c.id .unload
  split <;> exact h

theorem unloadAct_trace (hI : TraceInv I) : unloadAct.Keeps fun u => I u.trace := fun _ _ _ _ h => by
  refine .bind fun _ => .bind fun _ => .bind fun _ => .bind fun _ => .bind fun _ => .bind fun _ => ?_
  split
  · exact .pure (hI.unloadLoaded h _ _)
  · exact .pure (hI.writeTrace (by exact h) _ _ _)
  · exact .error _

theorem kilnReportAct_trace (hI : TraceInv I) : kilnReportAct.Keeps fun u => I u.trace := fun _ _ _ _ h => by
  refine .bind fun y => ?_
  dsimp only
  split
  · exact .pure (hI.storeReport h _ _ _)
  · exact .pure h

/-- A kiln command whose rule, where it accepts the charge, answers a change of the kiln and its charge. -/
theorem kilnCommand_trace {rule : KilnNo → Charge → Schedule → State → Option State}
    (h : ∀ k c x s t, I s.trace → rule k c x s = some t → I t.trace) : (kilnCommand rule).Keeps fun u => I u.trace :=
  kilnCommand_keeps (Inv := fun u => I u.trace) fun k c x s t hs _ _ ht => h k c x s t hs ht

theorem exec_trace {i : Instr} (hI : TraceInv I) (hs : I s.trace) (h : exec i s = .next t) : I t.trace := by
  have take {x : Port × Byte} (ht : takenBy i = some x) (ha : (actOf i).Keeps fun u => I u.trace) : I t.trace :=
    take_keeps (Inv := fun u => I u.trace) (fun _ _ h => h) ht ha hs h
  cases hr : resetsPorts i with
  | true =>
    rcases exec_resets_tables hr h with ⟨eye, rfl⟩ | tables
    · exact hI.empty
    · obtain ⟨u, l, before, after⟩ := tables.trace
      rw [after]
      exact hI.restartRecords l (before ▸ hs)
  | false =>
    cases i with
    | load =>
      exact take rfl fun _ _ _ _ h => .bind fun _ => .bind fun _ => .bind fun _ => .bind fun _ => .bind fun _ => .bind fun _ =>
        .bind fun _ => .bind fun _ => .pure (hI.writeTrace (by exact h) _ _ _)
    | unload => exact take rfl (unloadAct_trace hI)
    | kilnReport => exact take rfl (kilnReportAct_trace hI)
    | start =>
      refine take rfl (kilnCommand_trace fun k c x s t hs ht => ?_)
      unfold startRule at ht
      split at ht <;> cases ht
      exact hI.kilnChange hs k _ _ _ _
    | hold =>
      refine take rfl (kilnCommand_trace fun k c x s t hs ht => ?_)
      unfold holdRule at ht
      split at ht <;> cases ht
      exact hI.kilnChange hs k _ _ _ _
    | resume =>
      refine take rfl (kilnCommand_trace fun k c x s t hs ht => ?_)
      unfold resumeRule at ht
      split at ht <;> cases ht
      exact hI.kilnChange hs k _ _ _ _
    | skipStep =>
      refine take rfl (kilnCommand_trace fun k c x s t hs ht => ?_)
      unfold skipStepRule at ht
      split at ht <;> cases ht
      exact hI.applyChange hs k c x _ _ _
    | stop =>
      refine take rfl (kilnCommand_trace fun k c x s t hs ht => ?_)
      unfold stopRule at ht
      split at ht <;> cases ht
      exact hI.applyChange hs k c x _ _ _
    | kilnMinuteExpiry k =>
      exact event_keeps (Inv := fun u => I u.trace) (f := fun s => s.kilnMinute k) hs (fun _ => hI.kilnMinute hs k) h
    | setTraceMark =>
      refine take rfl fun _ _ _ _ h => .bind fun _ => .pure ?_
      dsimp only
      rw [raiseIf_trace]
      exact hI.marked _ _ h
    | restart | coldStart | warmStart => cases hr
    | _ => exact (exec_blocks h .trace rfl : t.trace = s.trace) ▸ hs

/-- The ring holds at most 2048 records (R186, R188). -/
theorem ringFits_traceInv : TraceInv fun g => g.ring.length ≤ 2048 where
  empty := Nat.zero_le _
  written := fun g x _ h => by
    have ready : g.ready.ring.length ≤ 2048 := by
      unfold TraceLog.ready
      split
      · exact Nat.zero_le _
      · exact h
    show (placeNewest g.ready.ring x).length ≤ 2048
    unfold placeNewest
    rw [List.length_append, List.length_singleton]
    split
    · rw [List.length_drop]
      omega
    · rename_i room
      exact Nat.lt_of_not_le room
  marked := fun _ _ h => h

end

end Sys2Proof.Machine

end

section
/-! SUPPORT. The planer tracker within its capacities (R118, R129, R137): the queues and the sources of a run, the sort map and
the meter receiver. -/

namespace Sys2Proof.Machine

/-- The run, the sort map and the receiver stay within what R118, R129 and R137 give. -/
structure Tracker.Fits (x : Tracker) : Prop where
  sortMap : x.sortMap.length ≤ 48 ∧ Rising SortEntry.key x.sortMap
  receiver : x.receiver.length ≤ 4
  run : ∀ n, x.run = some n → RunCapacities n

section

variable {s t : State} {n m : Run}

/-! ## The run -/

theorem Tracker.Fits.withRun (h : s.tracker.Fits) (hm : RunCapacities m) : (s.withRun (some m)).tracker.Fits :=
  ⟨h.sortMap, h.receiver, fun n hn => by cases hn; exact hm⟩

/-- A run whose queues, sources and history are no longer. -/
theorem RunCapacities.of_le (h : RunCapacities n) (ha : m.queueA.length ≤ n.queueA.length)
    (hb : m.queueB.length ≤ n.queueB.length) (hs : m.sources.length ≤ n.sources.length)
    (hh : m.history.length ≤ n.history.length) : RunCapacities m := by
  obtain ⟨queueA, queueB, sources, history⟩ := h
  exact ⟨ha.trans queueA, hb.trans queueB, hs.trans sources, hh.trans history⟩

theorem Tracker.Fits.endRun (h : s.tracker.Fits) (n : Run) (kind : EndKind) : (s.endRun n kind).tracker.Fits :=
  ⟨h.sortMap, h.receiver, nofun⟩

/-- Room is made in a full queue B, and queue A stands (R130). -/
theorem roomInB_fits (h : s.tracker.Fits) (hn : RunCapacities n) : (s.roomInB n).1.tracker.Fits ∧
    RunCapacities (s.roomInB n).2 ∧ (s.roomInB n).2.queueB.length < 48 ∧ (s.roomInB n).2.queueA = n.queueA := by
  have queueB : n.queueB.length ≤ 48 := hn.2.1
  unfold State.roomInB
  split
  · rename_i full
    unfold State.loseOldest
    split
    · rename_i empty
      rw [empty] at full
      cases full
    · rename_i b rest hb
      have fewer : rest.length < n.queueB.length := by rw [hb]; exact Nat.lt_succ_self _
      have left : RunCapacities { n with
          queueB := rest, bOverrun := true, counters := { n.counters with lost := satInc max32 n.counters.lost } } :=
        hn.of_le le_rfl fewer.le le_rfl le_rfl
      exact ⟨h.withRun left, left, fewer.trans_le queueB, rfl⟩
  · rename_i room
    exact ⟨h, hn, Nat.lt_of_not_le room, rfl⟩

/-- A board passes from queue A to queue B, which has room (R127, R130). -/
theorem RunCapacities.pass (h : RunCapacities n) (room : n.queueB.length < 48) {rest : List Board}
    (hr : rest.length ≤ n.queueA.length) (x : Board) :
    RunCapacities { n with queueA := rest, queueB := n.queueB ++ [x] } := by
  obtain ⟨queueA, _, sources, history⟩ := h
  exact ⟨hr.trans queueA, List.length_append.trans_le room, sources, history⟩

theorem roomInA_fits (h : s.tracker.Fits) (hn : RunCapacities n) : (s.roomInA n).1.tracker.Fits ∧
    RunCapacities (s.roomInA n).2 ∧ (s.roomInA n).2.queueA.length < 16 := by
  have queueA : n.queueA.length ≤ 16 := hn.1
  unfold State.roomInA
  split
  · rename_i full
    unfold State.overrunA
    split
    · rename_i empty
      rw [empty] at full
      cases full
    · rename_i b rest hb
      obtain ⟨fits, capacities, room, same⟩ := roomInB_fits h hn
      rw [hb] at queueA same
      have fewer : rest.length ≤ (s.roomInB n).2.queueA.length := by rw [same]; exact Nat.le_succ _
      have passed := (capacities.pass room fewer { b with reading := none, saturated := false, cls := some .noReading }).of_le
        (m := { (s.roomInB n).2 with
          queueA := rest
          queueB := (s.roomInB n).2.queueB ++ [{ b with reading := none, saturated := false, cls := some .noReading }]
          aOverrun := true }) le_rfl le_rfl le_rfl le_rfl
      exact ⟨fits.withRun passed, passed, queueA⟩
  · rename_i room
    exact ⟨h, hn, Nat.lt_of_not_le room⟩

theorem Tracker.Fits.boardArrives (h : s.tracker.Fits) (hn : RunCapacities n) : (s.boardArrives n).tracker.Fits := by
  obtain ⟨fits, ⟨_, queueB, sources, history⟩, room⟩ := roomInA_fits h hn
  rw [boardArrives_eq]
  exact fits.withRun (m := (s.roomInA n).2.append _) ⟨List.length_append.trans_le room, queueB, sources, history⟩

theorem Tracker.Fits.eyeRises (h : s.tracker.Fits) : s.eyeRises.tracker.Fits := by
  have high : (s.withTracker { s.tracker with eye := true }).tracker.Fits := ⟨h.sortMap, h.receiver, h.run⟩
  unfold State.eyeRises
  split
  · exact h
  · dsimp only
    split
    · rename_i n hn
      exact high.boardArrives (h.run n (runOpen_eq hn).1)
    · exact ⟨h.sortMap, h.receiver, h.run⟩

/-! ## Meter frames -/

theorem pushHistory_length {l : List Bool} (h : l.length ≤ 16) (valid : Bool) : (pushHistory l valid).length ≤ 16 := by
  unfold pushHistory
  split
  · simpa using h
  · rename_i room
    exact List.length_append.trans_le (Nat.le_of_not_lt room)

theorem RunCapacities.metered (h : RunCapacities n) (lossRun : Nat) (valid : Bool) :
    RunCapacities (n.metered lossRun valid) := by
  obtain ⟨queueA, queueB, sources, history⟩ := h
  exact ⟨queueA, queueB, sources, pushHistory_length history valid⟩

theorem Tracker.Fits.frameInRun (h : s.tracker.Fits) (hn : RunCapacities n) (f : MeterFrame) :
    (s.frameInRun n f).tracker.Fits := by
  have metered : RunCapacities (n.metered (s.param 13) f.isSome) := hn.metered _ _
  have raised : ((s.withRun (some (n.metered (s.param 13) f.isSome))).raiseIf
      ((n.metered (s.param 13) f.isSome).meter != n.meter) .meterState).tracker.Fits := by
    rw [State.raiseIf_eq]
    exact h.withRun metered
  unfold State.frameInRun
  dsimp only
  split
  · exact raised.withRun (metered.of_le le_rfl le_rfl le_rfl le_rfl)
  · rename_i b rest hb
    obtain ⟨fits, capacities, room, same⟩ := roomInB_fits raised metered
    unfold State.pairFrame
    dsimp only
    rw [feedBack_tracker]
    refine fits.withRun (capacities.pass room ?_ _)
    rw [same, hb]
    exact Nat.le_succ _

theorem Tracker.Fits.frameArrives (h : s.tracker.Fits) (f : MeterFrame) : (s.frameArrives f).tracker.Fits := by
  have emptied : (s.withTracker { s.tracker with receiver := [] }).tracker.Fits := ⟨h.sortMap, Nat.zero_le _, h.run⟩
  unfold State.frameArrives
  dsimp only
  split
  · exact emptied.frameInRun (h.run _ ‹_›) f
  · exact emptied

theorem receiveByte_length {l : List MeterByte} (h : l.length ≤ 4) (x : MeterByte) : (receiveByte l x).length ≤ 4 := by
  unfold receiveByte
  split
  · split <;> simp
  · split
    · exact List.length_append.trans_le ‹_›
    · exact h

/-! ## Takes of the planer line -/

theorem settleAll_tracker (s : State) (l : List Nat) : (s.settleAll l).tracker = s.tracker :=
  (Within.foldl (P := fun b => match b with | .charges => true | _ => false)
    (fun t _ => (Within.refl t).settle rfl _) l (.refl s)).blocks .tracker rfl

theorem modifyAll_tracker (s : State) (f : Charge → Charge) (l : List Nat) :
    (l.foldl (fun t id => t.modifyCharge id f) s).tracker = s.tracker :=
  (Within.foldl (P := fun b => match b with | .charges => true | _ => false)
    (fun t _ => (Within.refl t).modifyCharge rfl _ f) l (.refl s)).blocks .tracker rfl

theorem openRunAct_trackerFits : openRunAct.Keeps fun u => u.tracker.Fits := fun _ _ _ _ h =>
  .bind fun _ => .bind fun _ => .bind fun _ => .bind fun _ => .bind fun _ => .pure
    ⟨h.sortMap, h.receiver, fun n hn => by
      cases hn
      exact ⟨Nat.zero_le _, Nat.zero_le _, (by decide : 1 ≤ 3), Nat.zero_le _⟩⟩

theorem addSourceAct_trackerFits : addSourceAct.Keeps fun u => u.tracker.Fits := fun _ _ _ _ h =>
  .bind fun _ => .bind fun _ => .bind' fun n hn => .bind' fun _ room => .bind fun _ => .bind fun _ => .bind fun _ => .pure (by
    obtain ⟨queueA, queueB, _, history⟩ := h.run n (runOpen_eq (orRefuse_ok hn)).1
    exact h.withRun ⟨queueA, queueB, List.length_append.trans_le (of_decide_eq_true (require_ok room)), history⟩)

theorem advanceSourceAct_trackerFits : advanceSourceAct.Keeps fun u => u.tracker.Fits := fun _ _ _ _ h => by
  refine .bind fun _ => .bind' fun n hn => ?_
  split
  · rename_i old head rest hs
    refine .pure (h.withRun ((h.run n (runOpen_eq (orRefuse_ok hn)).1).of_le le_rfl le_rfl ?_ le_rfl))
    rw [hs]
    exact Nat.le_succ _
  · exact .error _

theorem closeRunAct_trackerFits : closeRunAct.Keeps fun u => u.tracker.Fits := fun _ _ s _ h => by
  refine .bind fun _ => .bind' fun n hn => .ite (.pure ?_) (.pure ?_)
  · have planed : (s.planeAll n.sources).tracker = s.tracker := modifyAll_tracker s Charge.planed n.sources
    exact Tracker.Fits.endRun (planed ▸ h) n .closed
  · dsimp only
    rw [settleAll_tracker]
    exact h.withRun ((h.run n (runOpen_eq (orRefuse_ok hn)).1).of_le le_rfl le_rfl (Nat.zero_le _) le_rfl)

theorem abortRunAct_trackerFits : abortRunAct.Keeps fun u => u.tracker.Fits := fun _ _ s _ h =>
  .bind fun _ => .bind fun n => .pure (Tracker.Fits.endRun (modifyAll_tracker s Charge.unplane n.charges ▸ h) _ .aborted)

theorem Tracker.Fits.dispatch (h : s.tracker.Fits) (hn : RunCapacities n) (b : Board) (d : Decision) :
    (s.dispatch n b d).tracker.Fits := by
  have left : (s.withRun (some (n.decided b d))).tracker.Fits :=
    h.withRun (hn.of_le le_rfl (List.length_eraseP_le ..) le_rfl le_rfl)
  unfold State.dispatch
  dsimp only
  split
  · exact ⟨left.sortMap, left.receiver, nofun⟩
  · exact left

theorem runStatusAct_trackerFits : runStatusAct.Keeps fun u => u.tracker.Fits := fun _ _ s _ h => by
  refine .bind fun _ => ?_
  split
  · refine .pure ⟨h.sortMap, h.receiver, fun m hm => ?_⟩
    obtain ⟨n, hn, rfl⟩ := Option.map_eq_some_iff.1 hm
    exact (h.run n hn).of_le le_rfl le_rfl le_rfl le_rfl
  all_goals exact .pure h

/-! ## The sort map -/

/-- An entry that takes the place of one with its key, or a free one (R137). -/
theorem putSortEntryAct_trackerFits : putSortEntryAct.Keeps fun u => u.tracker.Fits := fun _ _ s _ h =>
  .bind fun _ => .bind fun e => .bind' fun _ room => .pure ⟨⟨by
    have fits := h.sortMap
    rcases Bool.or_eq_true _ _ ▸ require_ok room with old | free
    · obtain ⟨_, hb⟩ := Option.isSome_iff_exists.1 old
      obtain ⟨x, hx, _⟩ := Option.map_eq_some_iff.1 hb
      have named := List.find?_some hx
      simp only [Bool.and_eq_true, beq_iff_eq] at named
      obtain ⟨⟨grade, width⟩, band⟩ := named
      have key : x.key = e.key := by rw [SortEntry.key, grade, width, band, SortEntry.key]
      exact (length_keyPut_present e fits.2 ⟨x, List.mem_of_find?_eq_some hx, key⟩).trans_le fits.1
    · exact (length_keyPut e _).trans (of_decide_eq_true free), rising_keyPut e h.sortMap.2⟩, h.receiver, h.run⟩

theorem removeSortEntryAct_trackerFits : removeSortEntryAct.Keeps fun u => u.tracker.Fits := fun _ _ _ _ h =>
  .bind fun _ => .bind fun _ => .bind fun _ => .pure
    ⟨⟨(List.length_filter_le ..).trans h.sortMap.1, h.sortMap.2.filter _⟩, h.receiver, h.run⟩

/-! ## Every command -/

theorem exec_trackerFits {i : Instr} (hs : s.tracker.Fits) (h : exec i s = .next t) : t.tracker.Fits := by
  have take {x : Port × Byte} (ht : takenBy i = some x) (ha : (actOf i).Keeps fun u => u.tracker.Fits) : t.tracker.Fits :=
    take_keeps (Inv := fun u => u.tracker.Fits) (fun _ _ h => h) ht ha hs h
  have event {f : State → State} (hf : (f s).tracker.Fits) (he : Machine.event f s = .next t) : t.tracker.Fits :=
    event_keeps (Inv := fun u => u.tracker.Fits) hs (fun _ => hf) he
  cases hr : resetsPorts i with
  | true =>
    rcases exec_resets_tables hr h with ⟨eye, rfl⟩ | tables
    · exact ⟨reset_capacitiesOk.sortMap, reset_capacitiesOk.receiver, nofun⟩
    · rcases tables.tracker with e | ⟨eye, e⟩ <;> rw [e]
      · exact hs
      · exact ⟨hs.sortMap, Nat.zero_le _, nofun⟩
  | false =>
    cases i with
    | openRun => exact take rfl openRunAct_trackerFits
    | addSource => exact take rfl addSourceAct_trackerFits
    | advanceSource => exact take rfl advanceSourceAct_trackerFits
    | closeRun => exact take rfl closeRunAct_trackerFits
    | abortRun => exact take rfl abortRunAct_trackerFits
    | boardGrade p lbsy =>
      refine take rfl fun p r s _ h => boardGradeAct_gives (Q := fun u => u.tracker.Fits) p r fun n b g d hn => ?_
      have sorted : (s.sortBoard lbsy n b g).1.tracker.Fits := by rw [sortBoard_tracker]; exact h
      exact sorted.dispatch (h.run n hn) b d
    | putSortEntry => exact take rfl putSortEntryAct_trackerFits
    | removeSortEntry => exact take rfl removeSortEntryAct_trackerFits
    | clearSortMap =>
      exact take rfl fun _ _ _ _ h => .bind fun _ => .pure ⟨⟨Nat.zero_le _, .nil⟩, h.receiver, h.run⟩
    | runStatus => exact take rfl runStatusAct_trackerFits
    | eyeEdge => exact event hs.eyeRises h
    | eyeFilteredFall =>
      exact event (f := fun s => s.withTracker { s.tracker with eye := false }) ⟨hs.sortMap, hs.receiver, hs.run⟩ h
    | meterFrame b e =>
      refine event (f := fun s => s.fifthByte ⟨b, e⟩) ?_ h
      unfold State.fifthByte
      split
      · exact hs.frameArrives _
      · exact hs
    | meterByteReceived b e =>
      exact event (f := fun s => s.withTracker { s.tracker with receiver := receiveByte s.tracker.receiver ⟨b, e⟩ })
        ⟨hs.sortMap, receiveByte_length hs.receiver _, hs.run⟩ h
    | meterIdleTimeout =>
      refine event (f := State.meterIdle) ?_ h
      unfold State.meterIdle
      split
      · exact hs
      · exact hs.frameArrives none
    | restart | coldStart | warmStart => cases hr
    | _ => exact (exec_blocks h .tracker rfl : t.tracker = s.tracker) ▸ hs

end

end Sys2Proof.Machine

end

section
/-! SUPPORT. The capacities and the sums of every table under every command. -/

namespace Sys2Proof.Machine

variable {i : Instr} {s t : State}

theorem exec_capacitiesOk (hs : CapacitiesOk s) (h : exec i s = .next t) : CapacitiesOk t :=
  have tracker : t.tracker.Fits := exec_trackerFits ⟨hs.sortMap, hs.receiver, hs.run⟩ h
  { charges := exec_chargesFit hs.charges h
    lots := exec_lots lotsFit_lotInv hs.lots h
    packs := exec_packs packsFit_packInv hs.packs h
    labelQueue := exec_queueFits hs.labelQueue h
    ring := exec_trace ringFits_traceInv hs.ring h
    sortMap := tracker.sortMap
    receiver := tracker.receiver
    run := tracker.run }

theorem exec_recordsOk (hs : RecordsOk s) (h : exec i s = .next t) : RecordsOk t :=
  ⟨exec_packs packsAddUp_packInv hs.packs h, exec_lots lotsAddUp_lotInv hs.lots h⟩

end Sys2Proof.Machine

open Sys2Proof Sys2Proof.Machine in
/-- Settles O58: every command keeps each table within its capacity by what it can do to the block that holds the table, and
every pack and lot adding up; none looks at the queue of commands. -/
theorem everyStepKeepsTablesWithinCapacity : Obligations.EveryStepKeepsTablesWithinCapacity :=
  ⟨stepKeeps_of_exec (fun _ _ h => ⟨h.charges, h.lots, h.packs, h.labelQueue, h.ring, h.sortMap, h.receiver, h.run⟩)
    exec_capacitiesOk, stepKeeps_of_exec (fun _ _ h => ⟨h.packs, h.lots⟩) exec_recordsOk⟩

end

section
/-! SUPPORT. The numbers that a search for a free identifier passes over (R56, R143, R154). -/

namespace Sys2Proof.Machine

/-- The search ends some numbers after `last`, and those before the end are in use. -/
theorem firstFree_passes (m : Nat) (used : List Nat) : ∀ fuel last, ∃ passed,
    firstFree m used fuel last = (wrapNext m)^[passed + 1] last ∧ ∀ i < passed, (wrapNext m)^[i + 1] last ∈ used
  | 0, _ => ⟨0, rfl, nofun⟩
  | fuel + 1, last => by
    unfold firstFree
    split
    · rename_i taken
      obtain ⟨passed, ends, before⟩ := firstFree_passes m used fuel (wrapNext m last)
      refine ⟨passed + 1, ends, fun i hi => ?_⟩
      cases i with
      | zero => simpa using taken
      | succ i => exact before i (Nat.lt_of_succ_lt_succ hi)
    · exact ⟨0, rfl, nofun⟩

end Sys2Proof.Machine

open Sys2Proof Sys2Proof.Machine in
/-- Settles O23: the range of the count, the free number it ends on, and the numbers it passes over. -/
theorem newIdentifiersAreFree : Obligations.NewIdentifiersAreFree := by
  unfold Obligations.NewIdentifiersAreFree
  intro m last used room
  obtain ⟨low, high⟩ := newId_range (m := m) (by omega) used last
  exact ⟨low, high, newId_not_mem room last, firstFree_passes m used used.length last⟩

end

section
/-! SUPPORT. The charge requests at their takes (R57, R58, R61, R62, R67, R69, R70). -/

namespace Sys2Proof.Machine

section

variable {s : State} {p : Port} {r : Request} {c : Charge} {id : Nat}

/-! ## DEFINE CHARGE -/

theorem defineChargeAct_eq {species thickness volume : Nat} (hb : readDefineCharge r.body = .ok (species, thickness, volume)) :
    defineChargeAct p r s = (orRefuse (s.species species) .noSuch >>= fun _ => require s.chargeEntryFree .tableFull >>= fun _ =>
      .ok (s.addCharge (newCharge s.nextChargeId species thickness volume), [.num 2 s.nextChargeId])) := by
  rw [defineChargeAct, hb]; rfl

/-! ## SET SAMPLES -/

/-- Items that are read back one by one are read back as a list (R9). -/
theorem readMany_bytes {α : Type} {item : Reader α} {bytes : α → List Byte} {width : Nat} (rest : List Byte) :
    ∀ (l : List α) (i : Nat), (∀ a ∈ l, ∀ tail j,
      item { rest := bytes a ++ tail, index := j } = .ok (a, { rest := tail, index := j + width })) →
    ∃ j, readMany item l.length { rest := l.flatMap bytes ++ rest, index := i } = .ok (l, { rest := rest, index := j })
  | [], i, _ => ⟨i, rfl⟩
  | a :: l, i, h => by
    obtain ⟨first, others⟩ := List.forall_mem_cons.1 h
    obtain ⟨j, tail⟩ := readMany_bytes rest l (i + width) others
    refine ⟨j, ?_⟩
    rw [List.length_cons, readMany_succ, List.flatMap_cons, List.append_assoc, first, ok_bind]
    simp only [tail, ok_bind]

theorem readGreen_bytes {g : Nat × Nat} (h : 100 ≤ g.1 ∧ g.1 ≤ 50000 ∧ 50 ≤ g.2 ∧ g.2 ≤ 2000) (rest : List Byte) (i : Nat) :
    readGreen { rest := (beBytes 2 g.1 ++ beBytes 2 g.2) ++ rest, index := i } =
      .ok (g, { rest := rest, index := i + 2 }) := by
  simp (disch := omega) only [readGreen, List.append_assoc, readNat_beBytes, ok_bind]
  rfl

theorem readSetSamples_bytes {l : List (Nat × Nat)} (hid : 1 ≤ id ∧ id ≤ 65535) (hl : 2 ≤ l.length ∧ l.length ≤ 8)
    (hg : ∀ g ∈ l, 100 ≤ g.1 ∧ g.1 ≤ 50000 ∧ 50 ≤ g.2 ∧ g.2 ≤ 2000) (rest : List Byte) :
    readSetSamples (beBytes 2 id ++ beBytes 1 l.length ++ (l.flatMap fun g => beBytes 2 g.1 ++ beBytes 2 g.2) ++ rest) =
      .ok (id, l) := by
  obtain ⟨j, samples⟩ := readMany_bytes (item := readGreen) rest l 3 fun g hg' => readGreen_bytes (hg g hg')
  simp (disch := omega) only [readSetSamples, fieldsOf, List.append_assoc, readNat_beBytes, ok_bind, samples]
  rfl

theorem setSamplesAct_eq {l : List (Nat × Nat)} (hb : readSetSamples r.body = .ok (id, l)) :
    setSamplesAct p r s = (orRefuse (s.charge id) .noSuch >>= fun c => require (isStagedOrLoaded c.state) .badState >>= fun _ =>
      .ok (s.setSamples c (newSamples l),
        [.num 2 id, .num 1 l.length] ++ (newSamples l).flatMap fun x => [.num 1 x.number, .num 2 x.ovenDry])) := by
  rw [setSamplesAct, hb]; rfl

theorem isStagedOrLoaded_iff (st : ChargeState) : isStagedOrLoaded st = true ↔ st = .staged ∨ st = .loaded := by
  cases st <;> simp [isStagedOrLoaded]

/-- New samples have no VALID one (R54, R104). -/
theorem validMCs_newSamples (l : List (Nat × Nat)) : validMCs (newSamples l) = [] := by
  unfold validMCs newSamples
  rw [List.filterMap_eq_nil_iff]
  intro x hx
  obtain ⟨i, hi, rfl⟩ := List.mem_mapIdx.1 hx
  rfl

/-- A new sample list leaves both figures absent (R105, R106). -/
theorem setSamples_new (hc : s.charge id = some c) (l : List (Nat × Nat)) :
    s.setSamples c (newSamples l) = (s.modifyCharge id fun _ =>
      { c with samples := newSamples l, controlling := none, wettest := none }).raiseIf c.controlling.isSome .samplesShort := by
  have absent : ({ c with samples := newSamples l } : Charge).recompute =
      { c with samples := newSamples l, controlling := none, wettest := none } := by
    simp [Charge.recompute, controllingOf, wettestOf, validMCs_newSamples, sortFalling]
  rw [State.setSamples, absent, charge_id hc, losesControlling, Option.isNone_none, Bool.and_true]

/-- The answer's items sample by sample (R58). -/
theorem newSamples_items (l : List (Nat × Nat)) :
    ((newSamples l).flatMap fun x => [Field.num 1 x.number, Field.num 2 x.ovenDry]) =
      (l.mapIdx fun i g => [Field.num 1 (i + 1), Field.num 2 (ovenDryWeight g.1 g.2)]).flatten := by
  rw [newSamples, List.flatMap, List.mapIdx_eq_zipIdx_map, List.mapIdx_eq_zipIdx_map, List.map_map]
  rfl

/-! ## UNLOAD -/

/-- A body that UNLOAD reads whole names its kiln in field 1. -/
theorem readUnload_kiln {b : List Byte} {k : KilnNo} (h : readUnload b = .ok (k, id)) :
    ∃ cursor, readKiln (fieldsOf b) = .ok (k, cursor) := by
  unfold readUnload at h
  cases hk : readKiln (fieldsOf b) with
  | error i => rw [hk] at h; cases h
  | ok x =>
    simp only [hk, ok_bind] at h
    cases hi : readNat 2 1 65535 x.2 with
    | error i => rw [hi] at h; cases h
    | ok y => rw [hi] at h; cases h; exact ⟨x.2, rfl⟩

section

variable {k : KilnNo} (hb : readUnload r.body = .ok (k, id)) (ho : Owns s p (.kiln k))
include hb ho

theorem unloadAct_empty (hl : (s.kiln k).link = none) : unloadAct p r s = .error .badState := by
  obtain ⟨cursor, hk⟩ := readUnload_kiln hb
  simp [unloadAct, fields, hk, claimCheck_owns ho, hb, hl, orRefuse]

theorem unloadAct_mismatch {other : Nat} (hl : (s.kiln k).link = some other) (hne : other ≠ id) :
    unloadAct p r s = .error .mismatch := by
  obtain ⟨cursor, hk⟩ := readUnload_kiln hb
  simp [unloadAct, fields, hk, claimCheck_owns ho, hb, hl, hne, orRefuse, require]

section

variable (hl : (s.kiln k).link = some id) (hc : s.charge id = some c)
include hl hc

theorem unloadAct_loaded (hs : c.state = .loaded) : unloadAct p r s =
    .ok (s.unloadLoaded k c, [.num 1 (kilnNumber k), .num 2 id, .sym (.state .staged)]) := by
  obtain ⟨cursor, hk⟩ := readUnload_kiln hb
  simp [unloadAct, fields, hk, claimCheck_owns ho, hb, hl, hc, hs, orRefuse, require, pure, Except.pure]

theorem unloadAct_dried (hs : c.state = .dried) : unloadAct p r s =
    .ok (s.unloadDried k c, [.num 1 (kilnNumber k), .num 2 id, .sym (.state .released)]) := by
  obtain ⟨cursor, hk⟩ := readUnload_kiln hb
  simp [unloadAct, fields, hk, claimCheck_owns ho, hb, hl, hc, hs, orRefuse, require, pure, Except.pure]

theorem unloadAct_otherwise (hloaded : c.state ≠ .loaded) (hdried : c.state ≠ .dried) :
    unloadAct p r s = .error .badState := by
  obtain ⟨cursor, hk⟩ := readUnload_kiln hb
  simp only [unloadAct, fields, hk, claimCheck_owns ho, hb, hl, hc, orRefuse, require, beq_self_eq_true, if_true, ok_bind]

end

end

/-! ## RETIRE CHARGE and CHARGE QUERY -/

theorem retireChargeAct_eq (hb : readOne 2 1 65535 r.body = .ok id) :
    retireChargeAct p r s = (orRefuse (s.charge id) .noSuch >>= fun c => require (c.state == .planed) .badState >>= fun _ =>
      require (c.refs == 0) .inUse >>= fun _ =>
      .ok (s.withCharges { s.charges with entries := keyErase Charge.id id s.charges.entries },
        [.num 2 id, .num 2 c.stats.metered, .num 2 c.stats.wet, .num 2 c.stats.overdry, .num 4 c.stats.mcSum])) := by
  rw [retireChargeAct, hb]; rfl

theorem chargeQueryAct_single (hb : readOne 2 0 65535 r.body = .ok id) (hid : id ≠ 0) :
    chargeQueryAct p r s = (orRefuse (s.charge id) .noSuch >>= fun c => .ok (s, c.fields)) := by
  rw [chargeQueryAct, hb]
  exact if_neg hid

theorem chargeQueryAct_list (hb : readOne 2 0 65535 r.body = .ok 0) : chargeQueryAct p r s =
    .ok (s, .num 1 s.charges.entries.length :: s.charges.entries.flatMap Charge.listFields) := by
  rw [chargeQueryAct, hb]; rfl

end

end Sys2Proof.Machine

open Sys2Proof Sys2Proof.Machine in
/-- Settles O24: the species, then a free entry, then the charge. -/
theorem defineChargeCreatesAStagedCharge : Obligations.DefineChargeCreatesAStagedCharge := by
  unfold Obligations.DefineChargeCreatesAStagedCharge
  intro p r sp th v s hr hb
  have act := defineChargeAct_eq (p := p) (s := s) hb
  refine ⟨fun hsp => ?unknown, fun x hsp room => ?created, fun x hsp full => ?full⟩ <;> rw [hsp, orRefuse] at act
  case unknown => exact exec_take_refused rfl hr act
  case created =>
    have free : s.chargeEntryFree = true := decide_eq_true room
    rw [free] at act
    exact exec_take_done rfl hr act
  case full =>
    have taken : s.chargeEntryFree = false := decide_eq_false (Nat.not_lt.2 full)
    rw [taken] at act
    exact exec_take_refused rfl hr act

open Sys2Proof Sys2Proof.Machine in
/-- Settles O26: the body read back, then the charge by its state. -/
theorem setSamplesReplacesTheList : Obligations.SetSamplesReplacesTheList := by
  unfold Obligations.SetSamplesReplacesTheList
  refine ⟨fun id l rest h1 h2 h3 h4 hg => readSetSamples_bytes ⟨h1, h2⟩ ⟨h3, h4⟩ hg rest, fun p r id l s hr hb => ?_⟩
  have act := setSamplesAct_eq (p := p) (s := s) hb
  refine ⟨fun hc => ?absent, fun c hc => ⟨fun hs => ?replaced, fun hn hl => ?refused⟩⟩ <;> rw [hc, orRefuse] at act
  case absent => exact exec_take_refused rfl hr act
  case replaced =>
    rw [ok_bind, (isStagedOrLoaded_iff _).2 hs, setSamples_new hc, newSamples_items] at act
    exact exec_take_done rfl hr act
  case refused =>
    have other : isStagedOrLoaded c.state = false :=
      Bool.eq_false_iff.2 fun h => ((isStagedOrLoaded_iff _).1 h).elim hn hl
    rw [ok_bind, other] at act
    exact exec_take_refused rfl hr act

open Sys2Proof Sys2Proof.Machine in
/-- Settles O30: the link of the kiln, then the charge by its state. -/
theorem unloadClearsTheTie : Obligations.UnloadClearsTheTie := by
  unfold Obligations.UnloadClearsTheTie
  intro p r k id s hr hb ho
  refine ⟨fun hl => ?empty, fun other hl hne => ?mismatch, fun c hl hc => ⟨fun n hs hn => ?loaded, fun hs => ?dried,
    fun hloaded hdried => ?otherwise⟩⟩
  case empty => exact exec_take_refused rfl hr (unloadAct_empty hb ho hl)
  case mismatch => exact exec_take_refused rfl hr (unloadAct_mismatch hb ho hl hne)
  case loaded =>
    have act := unloadAct_loaded hb ho hl hc hs
    simp only [State.unloadLoaded, hn, charge_id hc] at act
    exact exec_take_done rfl hr act
  case dried =>
    have act := unloadAct_dried hb ho hl hc hs
    rw [State.unloadDried, charge_id hc] at act
    exact exec_take_done rfl hr act
  case otherwise => exact exec_take_refused rfl hr (unloadAct_otherwise hb ho hl hc hloaded hdried)

open Sys2Proof Sys2Proof.Machine in
/-- Settles O31: RETIRE CHARGE by the charge's state and references; CHARGE QUERY of one charge and of the list. -/
theorem retireChargeAndChargeQueryComplete : Obligations.RetireChargeAndChargeQueryComplete := by
  unfold Obligations.RetireChargeAndChargeQueryComplete
  intro p r id s
  refine ⟨fun hr hb => ?retire, fun hr hb hid => ?query, fun hr hb => ?list⟩
  case retire =>
    have act := retireChargeAct_eq (p := p) (s := s) hb
    refine ⟨fun hc => ?absent, fun c hc => ⟨fun hs h0 => ?freed, fun hs => ?unfinished, fun hs h0 => ?referenced⟩⟩ <;>
      rw [hc, orRefuse] at act
    case absent => exact exec_take_refused rfl hr act
    case freed =>
      rw [ok_bind, beq_iff_eq.2 hs, beq_iff_eq.2 h0] at act
      exact exec_take_done rfl hr act
    case unfinished =>
      rw [ok_bind, beq_eq_false_iff_ne.2 hs] at act
      exact exec_take_refused rfl hr act
    case referenced =>
      rw [ok_bind, beq_iff_eq.2 hs, beq_eq_false_iff_ne.2 h0] at act
      exact exec_take_refused rfl hr act
  case query =>
    have act := chargeQueryAct_single (p := p) (s := s) hb hid
    refine ⟨fun hc => ?absent, fun c hc => ?shown⟩ <;> rw [hc, orRefuse] at act
    case absent => exact exec_take_refused (c := .chargeQuery p) rfl hr act
    case shown =>
      refine (exec_take_done (c := .chargeQuery p) rfl hr act).trans (congrArg
        (fun b => (Host.Outcome.next (s.done p r b) : Result)) ?_)
      unfold Charge.fields
      refine congrArg₂ (· ++ ·) (congrArg₂ (· ++ ·) (congrArg₂ (· ++ ·) (congrArg₂ (· ++ ·) (congrArg₂ (· ++ ·) ?items ?held)
        rfl) ?origin) rfl) (congrArg (List.flatMap · c.samples) (funext fun x => ?sample))
      case items => cases c.kiln <;> rfl
      case held => cases c.state <;> rfl
      case origin => cases c.origin <;> rfl
      case sample =>
        unfold Sample.fields
        cases x.status <;> rfl
  case list =>
    have act := chargeQueryAct_list (p := p) (s := s) hb
    refine (exec_take_done (c := .chargeQuery p) rfl hr act).trans (congrArg
      (fun l => (Host.Outcome.next (s.done p r (.num 1 s.charges.entries.length :: l)) : Result)) ?_)
    refine congrArg (List.flatMap · s.charges.entries) (funext fun d => ?_)
    unfold Charge.listFields
    cases d.kiln <;> rfl

end

section
/-! SUPPORT. Boards handed to the lot table and to a bin (R144 to R146, R156 to R159). -/

namespace Sys2Proof.Machine

section

variable {s : State} {lbsy : Bool} {bin : Nat} {q : Pack} {b : HandedBoard}

/-- A board lists its charge anew where the charge is not listed and an entry is free (R145, R158). -/
theorem joinLists_iff {cs : List Contributor} {id : Nat} :
    joinLists cs id = true ↔ id ∉ cs.map Contributor.charge ∧ cs.length < 4 := by
  have unlisted : (!lists cs id) = true ↔ id ∉ namedBy cs := by rw [Bool.not_eq_true', ← Bool.not_eq_true, lists_iff]
  rw [joinLists, Bool.and_eq_true, unlisted, decide_eq_true_iff]
  rfl

/-! ## Lots -/

theorem joinLot_eq (x : Lot) (charge volume : Nat) : s.joinLot x charge volume =
    if charge ∉ x.contributors.map Contributor.charge ∧ x.contributors.length < 4
    then (s.withLots { s.lots with lots := keyPut Lot.number (x.join charge volume) s.lots.lots }).addRef charge
    else s.withLots { s.lots with lots := keyPut Lot.number (x.join charge volume) s.lots.lots } :=
  if_congr joinLists_iff rfl rfl

section

variable {species thickness : Nat} (charge volume : Nat)

theorem handToLot_open {x : Lot} (h : s.openLot species thickness = some x) :
    s.handToLot species thickness charge volume = (s.joinLot x charge volume, some x.number) := by
  rw [State.handToLot, h]

theorem handToLot_opens (h : s.openLot species thickness = none) (room : s.lots.lots.length < 4) :
    s.handToLot species thickness charge volume =
      ((s.withLots { s.lots with last := s.nextLotNumber }).joinLot (openedLot s.nextLotNumber species thickness) charge
        volume, some s.nextLotNumber) := by
  rw [State.handToLot, h]
  exact if_pos room

theorem handToLot_full (h : s.openLot species thickness = none) (full : 4 ≤ s.lots.lots.length) :
    s.handToLot species thickness charge volume = (s.raiseAll .redryFull, none) := by
  rw [State.handToLot, h]
  exact if_neg (Nat.not_lt.2 full)

end

/-! ## Packs -/

theorem boardAdded_eq : s.boardAdded q b =
    if b.charge ∉ q.contributors.map Contributor.charge ∧ q.contributors.length < 4
    then (s.modifyPack q.id fun _ => q.add b).addRef b.charge else s.modifyPack q.id fun _ => q.add b :=
  if_congr joinLists_iff rfl rfl

theorem Pack.add_pieces : (q.add b).pieces = q.pieces + 1 := by
  unfold Pack.add Pack.meter
  cases b.reading <;> rfl

theorem addBoard_met (h : (s.target q.bin).met (q.add b) = true) :
    s.addBoard lbsy q b = (s.boardAdded q b).closePack lbsy q.id .target := by
  rw [addBoard_eq, Pack.closeAfter, if_pos h]

theorem addBoard_limit (h : ¬(s.target q.bin).met (q.add b) = true) (full : 2000 ≤ q.pieces + 1) :
    s.addBoard lbsy q b = (s.boardAdded q b).closePack lbsy q.id .limit := by
  have limit : Config.pieceLimit ≤ (q.add b).pieces := Pack.add_pieces ▸ full
  rw [addBoard_eq, Pack.closeAfter, if_neg h, if_pos limit]

theorem addBoard_stays (h : ¬(s.target q.bin).met (q.add b) = true) (room : q.pieces + 1 < 2000) :
    s.addBoard lbsy q b = s.boardAdded q b := by
  have below : ¬Config.pieceLimit ≤ (q.add b).pieces := Pack.add_pieces ▸ Nat.not_le.2 room
  rw [addBoard_eq, Pack.closeAfter, if_neg h, if_neg below]

theorem handToBin_joins (h : s.openPack bin = some q) (hk : q.key = b.key) :
    s.handToBin lbsy bin b = (s.addBoard lbsy q b, some q.id) := by
  rw [State.handToBin, h]
  exact if_pos hk

theorem handToBin_closes (h : s.openPack bin = some q) (hk : q.key ≠ b.key) :
    s.handToBin lbsy bin b = (s.closePack lbsy q.id .keyChange).openForBoard lbsy bin b := by
  rw [State.handToBin, h]
  exact if_neg hk

theorem handToBin_none (h : s.openPack bin = none) : s.handToBin lbsy bin b = s.openForBoard lbsy bin b := by
  rw [State.handToBin, h]

theorem openForBoard_opens (room : s.packs.packs.length < 64) : s.openForBoard lbsy bin b =
    ((s.withPacks { s.packs with
      packs := keyPut Pack.id (openedPack s.nextPackId bin b.key s.clock.stamp) s.packs.packs
      lastId := s.nextPackId }).addBoard lbsy (openedPack s.nextPackId bin b.key s.clock.stamp) b, some s.nextPackId) :=
  if_pos room

theorem openForBoard_full (full : 64 ≤ s.packs.packs.length) : s.openForBoard lbsy bin b = (s.refuseBoard, none) :=
  if_neg (Nat.not_lt.2 full)

end

end Sys2Proof.Machine

open Sys2Proof Sys2Proof.Machine in
/-- Settles O48: the contributors by their three cases, the lot table by the OPEN lot and its free entries, the bin by its OPEN
pack, the added board by what closes its pack. -/
theorem handedBoardsJoinLotsAndPacks : Obligations.HandedBoardsJoinLotsAndPacks := by
  unfold Obligations.HandedBoardsJoinLotsAndPacks
  refine ⟨fun cs other id => ⟨fun h => joinPieces_listed h other, fun h room => joinPieces_unlisted h room other,
    fun h full => joinPieces_full h full other⟩, fun sp th charge volume s => ?lots,
    fun lbsy bin b s => ?packs⟩
  case lots =>
    exact ⟨fun x h => (handToLot_open charge volume h).trans (congrArg (·, _) (joinLot_eq ..)),
      fun h room => (handToLot_opens charge volume h room).trans (congrArg (·, _) (joinLot_eq ..)),
      handToLot_full charge volume⟩
  case packs =>
    intro added meets listed joins
    have add (q : Pack) : q.add b = added q := by
      unfold Pack.add Pack.meter foldReading
      simp only [added, add_ite, Nat.add_zero]
      cases b.reading <;> cases q.mcMin <;> cases q.mcMax <;> rfl
    have met (q : Pack) : meets q ↔ (s.target q.bin).met (q.add b) = true := by
      rw [add]
      simp only [meets, BinTarget.met]
      cases s.target q.bin <;> exact decide_eq_true_iff.symm
    have book (q : Pack) (t : State) : t.boardAdded q b = listed q (t.modifyPack q.id fun _ => added q) :=
      add q ▸ boardAdded_eq
    have join (q : Pack) (t : State) (same : t.target q.bin = s.target q.bin) : joins q t (t.addBoard lbsy q b) := by
      refine ⟨fun h room => ?_, fun h full => ?_, fun h => ?_⟩ <;> rw [met, ← same] at h <;> rw [← book]
      · exact addBoard_stays h room
      · exact addBoard_limit h full
      · exact addBoard_met h
    refine ⟨fun q h hk => ⟨_, handToBin_joins h hk, join q s rfl⟩, fun q h hk => handToBin_closes h hk, handToBin_none,
      fun room => ⟨_, openForBoard_opens room, join _ _ rfl⟩, fun full => ?full⟩
    rw [openForBoard_full full, State.refuseBoard]
    exact ⟨fun h => by rw [h]; rfl, fun h => by rw [h]; rfl⟩

end

section
/-! SUPPORT. KILN REPORT and START at their takes (R78, R91), and what ends a step or a phase (R86, R88, R89). -/

namespace Sys2Proof.Machine

section

variable {s : State} {p : Port} {r : Request} {k : KilnNo} {c : Charge} {x : Schedule} {kl : Kiln} {rep : KilnReport}

/-! ## START (R91) -/

/-- The usable dry actual of a fresh report. -/
theorem freshDry_eq (kl : Kiln) : (kl.freshReport.bind fun rep => rep.dry.usable) =
    match (if kl.stale then none else kl.report) with
    | some rep => if rep.dry.valid then some rep.dry.value else none
    | none => none := by
  unfold Kiln.freshReport Actual.usable
  cases kl.stale <;> cases kl.report <;> rfl

theorem clampSetpoint_eq (v : Int) : clampSetpoint v = if v < 0 then 0 else if 1100 < v then 1100 else v.toNat := by
  unfold clampSetpoint
  split
  · omega
  · split <;> omega

/-- The setpoint START begins at: the clamped dry actual where the report is fresh and its channel valid. -/
theorem Kiln.startDry_eq (kl : Kiln) (stepDry : Nat) : kl.startDry stepDry =
    match (if kl.stale then none else kl.report) with
    | some rep =>
      if rep.dry.valid then (if rep.dry.value < 0 then 0 else if 1100 < rep.dry.value then 1100 else rep.dry.value.toNat)
      else stepDry
    | none => stepDry := by
  rw [Kiln.startDry, freshDry_eq]
  cases (if kl.stale then none else kl.report) with
  | none => rfl
  | some rep =>
    cases h : rep.dry.valid
    · simp only [h]; rfl
    · simp only [h, if_true, clampSetpoint_eq]

/-! ## KILN REPORT (R78) -/

theorem inReportRange_eq (v : Int) : inReportRange v = decide (-400 ≤ v ∧ v ≤ 1500) := (Bool.decide_and ..).symm

/-- A channel or a core of a report is read back whatever its value. -/
theorem readTemperature_bytes {v : Int} (h : -32768 ≤ v ∧ v ≤ 32767) (rest : List Byte) (i : Nat) :
    readInt 2 (-32768) 32767 { rest := (Field.int 2 v).bytes ++ rest, index := i } =
      .ok (v, { rest := rest, index := i + 1 }) :=
  readInt_bytes (by decide) h (by norm_num; omega) rest i

theorem readKilnReport_bytes {dry wet : Int} {cores : List Int} (hd : -32768 ≤ dry ∧ dry ≤ 32767)
    (hw : -32768 ≤ wet ∧ wet ≤ 32767) (hc : ∀ v ∈ cores, -32768 ≤ v ∧ v ≤ 32767) (hl : cores.length ≤ 4) (rest : List Byte) :
    readKilnReport (beBytes 1 (k.val + 1) ++ (Field.int 2 dry).bytes ++ (Field.int 2 wet).bytes ++ beBytes 1 cores.length ++
      cores.flatMap (fun v => (Field.int 2 v).bytes) ++ rest) =
      .ok (k, ⟨⟨dry, inReportRange dry⟩, ⟨wet, inReportRange wet⟩, cores.filter inReportRange⟩) := by
  obtain ⟨j, read⟩ := readMany_bytes (item := readInt 2 (-32768) 32767) (bytes := fun v => (Field.int 2 v).bytes) rest cores 5
    fun v hv tail i => readTemperature_bytes (hc v hv) tail i
  simp (disch := omega) only [readKilnReport, fieldsOf, List.append_assoc, readKiln_beBytes, readTemperature_bytes hd,
    readTemperature_bytes hw, readNat_beBytes, ok_bind, read]
  rfl

theorem takesReport_iff (st : ChargeState) :
    takesReport st = true ↔ st = .loaded ∨ (∃ ph, st = .active ph) ∨ ∃ ph h, st = .held ph h := by
  cases st <;> simp [takesReport]

section

variable (hb : readKilnReport r.body = .ok (k, rep))
include hb

/-- A report for a kiln whose charge takes it. -/
theorem kilnReportAct_stored (hl : (s.kiln k).link = some c.id) (hc : s.charge c.id = some c)
    (hs : takesReport c.state = true) : kilnReportAct p r s = .ok (s.storeReport k c.id rep,
      [.num 1 (k.val + 1), .flag false, .sym (.state c.state.name), .num 1 (s.kiln k).step, .num 2 (s.kiln k).dry,
        .num 2 (s.kiln k).wet]) := by
  have taken : s.reportingCharge k = some c := by simp [State.reportingCharge, State.kilnCharge, hl, hc, hs]
  rw [kilnReportAct, hb, fields, ok_bind]
  simp only [taken]
  rfl

/-- A report for a kiln without such a charge is ignored. -/
theorem kilnReportAct_ignored (h : s.reportingCharge k = none) : kilnReportAct p r s = .ok (s,
    [.num 1 (k.val + 1), .flag true, .sym (.state (s.kilnState k)), .num 1 0, .num 2 0, .num 2 0]) := by
  rw [kilnReportAct, hb, fields, ok_bind]
  simp only [h]
  rfl

end

theorem storeReport_fresh (h : (s.kiln k).stale = false) (id : Nat) :
    s.storeReport k id rep = s.setKiln k ((s.kiln k).reported rep) := by
  simp [State.storeReport, h]

theorem storeReport_stale (h : (s.kiln k).stale = true) (id : Nat) : s.storeReport k id rep =
    ((s.setKiln k ((s.kiln k).reported rep)).raiseAll .sensorStale).writeTrace k id .staleOff := by
  simp [State.storeReport, h]

/-! ## Triggers (R86, R88, R89) -/

theorem presentAtMost_iff (v : Option Nat) (bound : Nat) : presentAtMost v bound = true ↔ ∃ n, v = some n ∧ n ≤ bound := by
  cases v <;> simp [presentAtMost]

/-- A trigger that only ever ends its step or phase without EQ_TIMEOUT. -/
theorem plainTrigger_iff {t : Option Bool} {b : Prop} [Decidable b] (h : t = if b then some false else none) :
    (t = some false ↔ b) ∧ t ≠ some true := by
  subst h
  by_cases hb : b <;> simp [hb]

theorem equalizeEnd_iff (e : Equalize) (tg : Nat) (wettest : Option Nat) (on : Nat) :
    (equalizeEnd e tg wettest on = some false ↔ ∃ mc, wettest = some mc ∧ mc ≤ tg + e.band) ∧
    (equalizeEnd e tg wettest on = some true ↔ (∀ mc, wettest = some mc → tg + e.band < mc) ∧ e.maxOn ≤ on) := by
  have dry := presentAtMost_iff wettest (tg + e.band)
  have wet : ¬presentAtMost wettest (tg + e.band) = true ↔ ∀ mc, wettest = some mc → tg + e.band < mc := by
    rw [dry]; push Not; rfl
  rw [← dry, ← wet]
  unfold equalizeEnd
  by_cases hd : presentAtMost wettest (tg + e.band) = true
  · simp [hd]
  · by_cases ho : e.maxOn ≤ on <;> simp [hd, ho]

theorem maxCore_eq (l : List Int) : maxCore l = l.max? := by cases l <;> rfl

/-- The largest core is at most the end temperature where there are cores and each of them is. -/
theorem maxCore_le_iff (l : List Int) (bound : Int) :
    (∃ v, maxCore l = some v ∧ v ≤ bound) ↔ l ≠ [] ∧ ∀ v ∈ l, v ≤ bound := by
  rw [maxCore_eq]
  cases h : l.max? with
  | none => simp [List.max?_eq_none_iff.1 h]
  | some v =>
    have cores : l ≠ [] := fun e => by rw [e] at h; cases h
    simp [cores, List.max?_le_iff h]

theorem Kiln.coresCooled_iff (kl : Kiln) (bound : Nat) : kl.coresCooled bound = true ↔
    kl.stale = false ∧ ∃ rep, kl.report = some rep ∧ rep.cores ≠ [] ∧ ∀ v ∈ rep.cores, v ≤ (bound : Int) := by
  have cooled : kl.coresCooled bound = true ↔
      ∃ rep, kl.freshReport = some rep ∧ ∃ v, maxCore rep.cores = some v ∧ v ≤ (bound : Int) := by
    unfold Kiln.coresCooled
    cases kl.freshReport with
    | none => simp
    | some rep => cases h : maxCore rep.cores <;> simp [h]
  rw [cooled]
  simp only [maxCore_le_iff, Kiln.freshReport]
  cases kl.stale <;> simp

end

end Sys2Proof.Machine

open Sys2Proof Sys2Proof.Machine in
/-- Settles O32: the body read back, then the kiln by its charge. -/
theorem kilnReportRefreshesTheKiln : Obligations.KilnReportRefreshesTheKiln := by
  unfold Obligations.KilnReportRefreshesTheKiln
  refine ⟨fun k dry wet cores rest hd hw hc hl => ?body, fun p r k rep s hr hb => ⟨fun c hl hc hs => ?taken, fun hl => ?empty,
    fun c hl hc hs => ?dried⟩⟩
  case body =>
    rw [readKilnReport_bytes hd hw hc hl rest, ← inReportRange_eq, ← inReportRange_eq]
    simp only [← inReportRange_eq]
  case taken =>
    have act := kilnReportAct_stored (p := p) hb hl hc ((takesReport_iff _).2 hs)
    refine ⟨fun fresh => ?_, fun stale => ?_⟩
    · rw [storeReport_fresh fresh] at act
      exact exec_take_done rfl hr act
    · rw [storeReport_stale stale] at act
      exact exec_take_done rfl hr act
  case empty =>
    have charge : s.kilnCharge k = none := by simp [State.kilnCharge, hl]
    have act := kilnReportAct_ignored (p := p) hb (show s.reportingCharge k = none by rw [State.reportingCharge, charge]; rfl)
    rw [State.kilnState, charge] at act
    exact exec_take_done rfl hr act
  case dried =>
    have charge : s.kilnCharge k = some c := by simp [State.kilnCharge, hl, hc]
    have act := kilnReportAct_ignored (p := p) hb
      (show s.reportingCharge k = none by simp [State.reportingCharge, charge, hs, takesReport])
    simp only [State.kilnState, charge, hs] at act
    exact exec_take_done rfl hr act

open Sys2Proof Sys2Proof.Machine in
/-- Settles O33: an empty kiln, then the state of its charge. -/
theorem startBeginsDryingAtStepOne : Obligations.StartBeginsDryingAtStepOne := by
  unfold Obligations.StartBeginsDryingAtStepOne
  intro p r k s hr hk ho
  refine ⟨fun hl => kilnTake_empty hk ho hl hr, fun c x tg h ht => ?_⟩
  intro dry kl
  have started : (s.kiln k).started x = kl := by
    simp only [Kiln.started, ht, Option.getD_some, wetOf, Kiln.startDry_eq]
    rfl
  refine ⟨fun hc => ?_, fun hc => ?_⟩
  · refine kilnTake_change hk ho h hr ?_ rfl rfl (fun _ => rfl) rfl
    simp only [startRule, hc, started]
  · refine kilnTake_refused hk ho h hr ?_
    cases hs : c.state with
    | loaded => exact absurd hs hc
    | _ => simp only [startRule, hs]

open Sys2Proof Sys2Proof.Machine in
/-- Settles O37: the trigger of each kind of step and of each phase. -/
theorem triggersEndStepsAndPhases : Obligations.TriggersEndStepsAndPhases := by
  unfold Obligations.TriggersEndStepsAndPhases
  intro x kl c
  refine ⟨fun l st hx hst => ?moisture, fun l st hx hst => ?time, fun e tg he htg => ?equalizing, fun e he => ?conditioning,
    ?cooling⟩
  case moisture =>
    rw [← presentAtMost_iff]
    refine plainTrigger_iff ?_
    simp only [phaseTrigger, stepTrigger, hx, hst, Bool.and_eq_true, decide_eq_true_iff]
  case time =>
    refine plainTrigger_iff ?_
    simp only [phaseTrigger, stepTrigger, hx, hst, decide_eq_true_iff]
  case equalizing =>
    have trigger : phaseTrigger .equalizing x kl c = equalizeEnd e tg c.wettest kl.phaseOn := by
      simp only [phaseTrigger, he, htg, Option.bind_some, Option.getD_some]
    rw [trigger]
    exact equalizeEnd_iff ..
  case conditioning =>
    refine plainTrigger_iff ?_
    simp only [phaseTrigger, he, Option.bind_some]
  case cooling =>
    rw [← Kiln.coresCooled_iff, or_comm]
    refine plainTrigger_iff ?_
    simp only [phaseTrigger, Bool.or_eq_true, decide_eq_true_iff]

end

section
/-! SUPPORT. What the parts of a minute make of a kiln, its charge, the alerts and the trace log (R76 to R90, R188), and what they
leave of every other kiln, charge and block. -/

namespace Sys2Proof.Machine

/-! ## Work on one kiln and its charge -/

/-- A change that keeps every key changes nothing that is found under another key. -/
theorem keyFind_keyModify_ne {α : Type} {key : α → Nat} {f : α → α} (hf : ∀ a, key (f a) = key a) {j k : Nat} (h : j ≠ k)
    (l : List α) : keyFind key j (keyModify key k f l) = keyFind key j l := by
  have keeps (a : α) : key (if key a = k then f a else a) = key a := by split <;> simp [hf]
  have found : keyFind key j (keyModify key k f l) = (keyFind key j l).map fun a => if key a = k then f a else a := by
    simp only [keyFind, keyModify, List.find?_map, Function.comp_def, keeps]
  rw [found]
  cases hj : keyFind key j l with
  | none => rfl
  | some a => simp [keyFind_key hj, h]

/-- The blocks a minute of a kiln may change, as `MinuteBlocks` lists them. -/
def minuteBlocks : Block → Bool
  | .kilns | .charges | .library | .trace => true
  | _ => false

theorem minuteBlocks_listed : MinuteBlocks minuteBlocks := ⟨rfl, rfl, rfl, rfl⟩

/-- From `s` to `t` the record of kiln `k` has become `kl` and its charge `c`, the causes `cs` have been raised and the records
`rs` written; the parameters, every other kiln and every other charge stand, and the blocks a minute does not change. -/
structure Worked (s : State) (k : KilnNo) (kl : Kiln) (c : Charge) (cs : BitVec 24) (rs : List TraceRecord) (t : State) :
    Prop where
  kiln : t.kiln k = kl
  charge : t.charge c.id = some c
  log : s.trace.Clear rs.length → t.trace = s.trace.after rs ∧ Raises s t cs rs.length
  otherKilns : ∀ j, j ≠ k → t.kiln j = s.kiln j
  otherCharges : ∀ id, id ≠ c.id → t.charge id = s.charge id
  lastId : t.charges.lastId = s.charges.lastId
  ids : t.charges.entries.map Charge.id = s.charges.entries.map Charge.id
  params : t.library.params = s.library.params
  within : Within minuteBlocks s t

/-- Two raises are the raise of both sets of causes (R13). -/
theorem raises_join (pending enabled a b : BitVec 24) :
    pending ||| (enabled &&& a) ||| (enabled &&& b) = pending ||| (enabled &&& (a ||| b)) := by
  rw [BitVec.or_assoc]
  congr 1
  ext i hi
  simp only [BitVec.getElem_or, BitVec.getElem_and, Bool.and_or_distrib_left]

section

variable {s t : State} {k : KilnNo} {kl m : Kiln} {c : Charge} {cs : BitVec 24} {rs : List TraceRecord} {x : Schedule}

theorem Holds.worked (h : Holds s k c x) : Worked s k (s.kiln k) c 0#24 [] s where
  kiln := rfl
  charge := h.charge
  log := fun clear => by
    have idle : s.trace.markReached 0 = false := by
      unfold TraceLog.markReached
      cases s.trace.mark <;> simp
    exact ⟨(TraceLog.after_nil _ clear).symm, fun q => by simp [idle]⟩
  otherKilns := fun _ _ => rfl
  otherCharges := fun _ _ => rfl
  lastId := rfl
  ids := rfl
  params := rfl
  within := .refl s

namespace Worked

variable (h : Worked s k kl c cs rs t)
include h

theorem param (n : Nat) : t.param n = s.param n := by
  rw [State.param, h.params]
  rfl

theorem enabled (q : Port) : (t.port q).enabled = (s.port q).enabled := by
  obtain ⟨m, alerted⟩ := h.within.alerts q
  rw [alerted]

theorem setKiln (m : Kiln) : Worked s k m c cs rs (t.setKiln k m) :=
  { h with
    kiln := State.setKiln_kiln_same t k m
    otherKilns := fun j hj => (State.setKiln_kiln_ne t m hj).trans (h.otherKilns j hj)
    within := h.within.setKiln rfl k m }

/-- The charge is changed by `f`, which keeps its id. -/
theorem modifyCharge {f : Charge → Charge} (hf : ∀ d, (f d).id = d.id) :
    Worked s k kl (f c) cs rs (t.modifyCharge c.id f) :=
  { h with
    charge := by
      rw [hf]
      exact (keyFind_keyModify hf c.id t.charges.entries).trans (congrArg (Option.map f) h.charge)
    otherCharges := fun id hid => by
      rw [hf] at hid
      exact (keyFind_keyModify_ne hf hid _).trans (h.otherCharges id hid)
    ids := (keyModify_map fun d _ _ => hf d).trans h.ids
    within := h.within.modifyCharge rfl c.id f }

theorem raiseAll (y : Cause) : Worked s k kl c (cs ||| y.bit) rs (t.raiseAll y) :=
  { h with
    log := fun clear => by
      obtain ⟨trace, raised⟩ := h.log clear
      refine ⟨trace, fun q => ?_⟩
      rw [State.raiseAll_port, PortUnit.raise_eq]
      simp only [raised q, h.enabled q]
      rw [BitVec.and_comm y.bit, raises_join, BitVec.or_assoc, BitVec.or_assoc, BitVec.or_comm y.bit]
    within := h.within.raiseAll y }

/-- A record of the kiln and its charge follows the records before it, and may reach the mark (R187, R191). -/
theorem writeTrace_log (kind : TraceKind) (clear : s.trace.Clear (rs.length + 1)) :
    (t.writeTrace k c.id kind).trace = s.trace.after (rs ++ [recordOf s.clock k c.id c.controlling kl kind c.state.name]) ∧
    Raises s (t.writeTrace k c.id kind) cs (rs.length + 1) := by
  obtain ⟨trace, raised⟩ := h.log (clear.mono (Nat.le_succ _))
  have last : t.trace.Clear 1 := by
    rw [trace]
    exact (clear.after rs (Nat.le_succ _)).mono (by omega)
  obtain ⟨log, ports⟩ := State.writeTrace_after t k c.id kind last
  constructor
  · have clock : t.clock = s.clock := h.within.blocks .clock rfl
    rw [log, State.traceRecord_eq, after_seq, trace, TraceLog.after_append, h.charge, h.kiln, clock]
    rfl
  · intro q
    rw [ports q, h.enabled q, raised q, raises_join, BitVec.or_assoc, s.trace.markReached_add rs 1, ← trace]
    cases s.trace.markReached rs.length <;> cases t.trace.markReached 1 <;> simp

theorem writeTrace (kind : TraceKind) :
    Worked s k kl c cs (rs ++ [recordOf s.clock k c.id c.controlling kl kind c.state.name]) (t.writeTrace k c.id kind) := by
  have charges : (t.writeTrace k c.id kind).charges = t.charges := State.writeTrace_charges ..
  have kiln (j : KilnNo) : (t.writeTrace k c.id kind).kiln j = t.kiln j :=
    congrArg (Table.get · j) (State.writeTrace_kilns ..)
  have charge (id : Nat) : (t.writeTrace k c.id kind).charge id = t.charge id :=
    congrArg (fun u : ChargeTable => keyFind Charge.id id u.entries) charges
  exact
    { kiln := (kiln k).trans h.kiln
      charge := (charge c.id).trans h.charge
      log := fun clear => by
        rw [List.length_append] at clear ⊢
        exact h.writeTrace_log kind clear
      otherKilns := fun j hj => (kiln j).trans (h.otherKilns j hj)
      otherCharges := fun id hid => (charge id).trans (h.otherCharges id hid)
      lastId := (congrArg ChargeTable.lastId charges).trans h.lastId
      ids := (congrArg (fun u : ChargeTable => u.entries.map Charge.id) charges).trans h.ids
      params := (congrArg Library.params (writeTrace_library ..)).trans h.params
      within := h.within.writeTrace rfl k c.id kind }

end Worked

end

end Sys2Proof.Machine

end

section
/-! SUPPORT. The seven parts of a minute (R76), each by what it makes of the kiln record, the charge, the alerts and the log. -/

namespace Sys2Proof.Machine

/-! ## The kiln record and the charge after a part -/

/-- The kiln record after part 1 under the stale limit (R79). -/
def Kiln.agedTo (kl : Kiln) (limit : Nat) : Kiln :=
  { kl with age := satInc max16 kl.age, stale := kl.stale || kl.turnsStale limit }

/-- Whether part 5 certifies a charge in a minute that is hot or not (R84). -/
def Charge.certifies (c : Charge) (hot : Bool) (minutes : Nat) : Bool :=
  !c.flags.htCertified && hot && decide (minutes ≤ c.htAccrual + 1)

/-- The charge after part 5 (R84). -/
def Charge.heated (c : Charge) (hot : Bool) (minutes : Nat) : Charge :=
  if c.flags.htCertified then c
  else if hot then
    { c with htAccrual := c.htAccrual + 1, flags := { c.flags with htCertified := decide (minutes ≤ c.htAccrual + 1) } }
  else { c with htAccrual := 0 }

/-- Whether part 7 writes a CHART record (R90). -/
def Kiln.charts (kl : Kiln) (interval : Nat) : Bool := kl.timer && decide (interval ≤ kl.chart + 1)

/-- The kiln record after part 7 (R90). -/
def Kiln.charted (kl : Kiln) (interval : Nat) : Kiln :=
  if kl.timer then { kl with chart := if kl.charts interval then 0 else kl.chart + 1 } else kl

/-- Whether a minute in phase `ph` is an on-minute (R80). -/
def Kiln.isOn (kl : Kiln) (ph : Phase) (tolerance : Nat) : Bool :=
  !kl.stale && (decide (ph = .cooling) || match kl.report with
    | some rep => rep.dry.valid && decide ((rep.dry.value - kl.dry).natAbs ≤ tolerance)
    | none => false)

/-- The kiln record after part 2 of a minute in phase `ph` (R80). -/
def Kiln.countedIn (kl : Kiln) (ph : Phase) (tolerance : Nat) : Kiln :=
  { kl with
    phaseOn := if kl.isOn ph tolerance then satInc max16 kl.phaseOn else kl.phaseOn
    stepOn := if kl.isOn ph tolerance && decide (ph = .drying) then satInc max16 kl.stepOn else kl.stepOn
    onRun := if kl.isOn ph tolerance then satInc max16 kl.onRun else 0
    offRun := if kl.isOn ph tolerance then 0 else satInc max16 kl.offRun }

/-- The kiln record after the triggers of part 6 in phase `ph` (R86 to R89). -/
def Kiln.triggered (kl : Kiln) (x : Schedule) (ph : Phase) (trigger : Option Bool) : Kiln :=
  if trigger.isSome then (nextChange x ph kl.step).kiln x kl else kl

/-- The charge after the triggers of part 6 (R86 to R89). -/
def Charge.triggered (c : Charge) (trigger : Option Bool) (ch : Change) : Charge :=
  { c with
    state := if trigger.isSome then ch.chargeState c.state else c.state
    flags := { c.flags with eqTimeout := c.flags.eqTimeout || decide (trigger = some true) } }

section

variable {s t : State} {k : KilnNo} {kl : Kiln} {c : Charge} {cs : BitVec 24} {rs : List TraceRecord} {x : Schedule}

theorem Charge.heated_id (c : Charge) (hot : Bool) (minutes : Nat) : (c.heated hot minutes).id = c.id := by
  unfold Charge.heated
  split
  · rfl
  · split <;> rfl

/-- Part 5 changes the accrual and the HT_CERTIFIED flag alone. -/
theorem Charge.heated_keeps (c : Charge) (hot : Bool) (minutes : Nat) :
    (c.heated hot minutes).state = c.state ∧ (c.heated hot minutes).controlling = c.controlling := by
  unfold Charge.heated
  split
  · exact ⟨rfl, rfl⟩
  · split <;> exact ⟨rfl, rfl⟩

theorem minuteClass_active (kl : Kiln) (ph : Phase) (tolerance : Nat) :
    minuteClass (.active ph) kl tolerance = if kl.isOn ph tolerance then .onMinute else .offMinute := by
  have within : kl.inTolerance tolerance = (!kl.stale && match kl.report with
      | some rep => rep.dry.valid && decide ((rep.dry.value - kl.dry).natAbs ≤ tolerance)
      | none => false) := by
    unfold Kiln.inTolerance Kiln.freshReport Actual.usable
    cases kl.stale <;> cases kl.report with
    | none => rfl
    | some rep => cases h : rep.dry.valid <;> simp [h]
  unfold Kiln.isOn
  cases ph with
  | cooling => cases h : kl.stale <;> simp [minuteClass, h]
  | _ => simp [minuteClass, within]

theorem Kiln.counted_active (kl : Kiln) (ph : Phase) (tolerance : Nat) :
    kl.counted (minuteClass (.active ph) kl tolerance) (ChargeState.active ph == .active .drying) =
      kl.countedIn ph tolerance := by
  rw [minuteClass_active]
  have drying : (ChargeState.active ph == .active .drying) = decide (ph = .drying) := by cases ph <;> rfl
  cases h : kl.isOn ph tolerance <;> simp [Kiln.counted, Kiln.countedIn, h, drying]

theorem Deviation.traceKind_eq (d : Deviation) : d.traceKind = if d = .deviating then .deviationOn else .deviationOff := by
  cases d <;> rfl

theorem Kiln.ramped_eq {tg : KilnTarget} (h : kl.target = some tg) (ramp : Nat) : kl.ramped ramp =
    { kl with
      dry := (rampMinute kl.dry tg.dry kl.accumulator ramp).1
      wet := (rampMinute kl.dry tg.dry kl.accumulator ramp).1 - tg.depression
      accumulator := (rampMinute kl.dry tg.dry kl.accumulator ramp).2 } := by
  simp [Kiln.ramped, h, wetOf]

theorem minCore_eq (l : List Int) : minCore l = l.min? := by cases l <;> rfl

/-- A hot minute, by the smallest core of the last report (R84). -/
theorem Kiln.isHot_eq (kl : Kiln) (temperature : Nat) : kl.isHot temperature =
    (!kl.stale && match kl.report.bind fun rep => rep.cores.min? with
      | some v => decide ((temperature : Int) ≤ v)
      | none => false) := by
  simp only [Kiln.isHot, Kiln.freshReport, minCore_eq]
  cases kl.stale <;> rfl

/-- Part 6 raises STEP_OVERTIME in DRYING alone, beyond the maximum of a step that has one (R85). -/
theorem Kiln.turnsOvertime_eq (kl : Kiln) (x : Schedule) (ph : Phase) : (decide (ph = .drying) && kl.turnsOvertime x) =
    (!kl.overtime && match x.steps with
      | .moisture l => match l[kl.step - 1]? with
        | some st => decide (ph = .drying) && st.maxOn != 0 && decide (st.maxOn < kl.stepOn)
        | none => false
      | .time _ => false) := by
  unfold Kiln.turnsOvertime Steps.moistureStep
  cases x.steps with
  | time l => simp
  | moisture l => cases h : l[kl.step - 1]? with
    | none => simp [h]
    | some st => simp only [h, Bool.and_assoc, Bool.and_comm (!kl.overtime)]

/-- No change of step or phase touches the stale flag (R83, R89). -/
theorem Kiln.triggered_stale (kl : Kiln) (x : Schedule) (ph : Phase) (trigger : Option Bool) :
    (kl.triggered x ph trigger).stale = kl.stale := by
  unfold Kiln.triggered
  split
  · cases nextChange x ph kl.step <;> rfl
  · rfl

namespace Worked

/-- Work that reaches a state is told by its figures. -/
theorem congr {m : Kiln} {d : Charge} {ds : BitVec 24} {qs : List TraceRecord} (h : Worked s k kl c cs rs t) (hk : kl = m)
    (hc : c = d) (hs : cs = ds) (hr : rs = qs) : Worked s k m d ds qs t := by
  subst hk hc hs hr
  exact h

variable (h : Worked s k kl c cs rs t)
include h

theorem minuteAge : Worked s k (kl.agedTo (s.param 4)) c
    (cs ||| if kl.turnsStale (s.param 4) then 0x000020 else 0)
    (rs ++ if kl.turnsStale (s.param 4) then
      [recordOf s.clock k c.id c.controlling (kl.agedTo (s.param 4)) .staleOn c.state.name] else [])
    (minuteAge k c.id t) := by
  unfold Machine.minuteAge
  rw [h.kiln, h.param]
  cases hs : kl.turnsStale (s.param 4) with
  | true =>
    have aged : ({ kl.aged with stale := true } : Kiln) = kl.agedTo (s.param 4) := by simp [Kiln.agedTo, hs, Kiln.aged]
    simp only [if_true, aged]
    exact ((h.setKiln _).raiseAll .sensorStale).writeTrace .staleOn
  | false =>
    have aged : kl.aged = kl.agedTo (s.param 4) := by simp [Kiln.agedTo, hs, Kiln.aged]
    simpa [aged] using h.setKiln kl.aged

theorem minuteCount (st : ChargeState) : Worked s k
    (kl.counted (minuteClass st kl (s.param 1)) (st == .active .drying)) c cs rs (minuteCount k st t) := by
  unfold Machine.minuteCount
  rw [h.kiln, h.param]
  exact h.setKiln _

theorem setDeviation (d : Deviation) : Worked s k { kl with deviation := d } c
    (cs ||| if d = kl.deviation then 0 else 0x000010)
    (rs ++ if d = kl.deviation then []
      else [recordOf s.clock k c.id c.controlling kl d.traceKind c.state.name])
    (t.setDeviation k c.id d) := by
  unfold State.setDeviation
  rw [h.kiln]
  split
  · rename_i same
    subst same
    simpa using h
  · exact ((h.setKiln _).raiseAll .kilnDeviation).writeTrace d.traceKind

theorem minuteDeviation (ph : Phase) : Worked s k { kl with deviation := kl.deviationAfter (s.param 2) (s.param 3) } c
    (cs ||| if kl.deviationAfter (s.param 2) (s.param 3) = kl.deviation then 0 else 0x000010)
    (rs ++ if kl.deviationAfter (s.param 2) (s.param 3) = kl.deviation then []
      else [recordOf s.clock k c.id c.controlling kl (kl.deviationAfter (s.param 2) (s.param 3)).traceKind c.state.name])
    (minuteDeviation k c.id (.active ph) t) := by
  simp only [Machine.minuteDeviation, h.kiln, h.param]
  exact h.setDeviation _

theorem minuteRamp (ph : Phase) : Worked s k (kl.ramped x.ramp) c cs rs (minuteRamp k (.active ph) x t) := by
  simp only [Machine.minuteRamp, h.kiln]
  exact h.setKiln _

theorem minuteHeat : Worked s k kl (c.heated (kl.isHot (s.param 5)) (s.param 6))
    (cs ||| if c.certifies (kl.isHot (s.param 5)) (s.param 6) then 0x000100 else 0)
    (rs ++ if c.certifies (kl.isHot (s.param 5)) (s.param 6) then
      [recordOf s.clock k c.id c.controlling kl .ht c.state.name] else [])
    (minuteHeat k c t) := by
  unfold Machine.minuteHeat Charge.certifies Charge.heated
  rw [h.kiln, h.param, h.param]
  cases certified : c.flags.htCertified with
  | true => simpa using h
  | false =>
    cases hot : kl.isHot (s.param 5) with
    | false => simpa using h.modifyCharge (f := fun c => { c with htAccrual := 0 }) fun _ => rfl
    | true =>
      by_cases reached : s.param 6 ≤ c.htAccrual + 1
      · simpa [reached] using show Worked s k kl _ (cs ||| 0x000100) _ _ from ((h.modifyCharge (f := fun c =>
          { c with htAccrual := c.htAccrual + 1, flags := { c.flags with htCertified := true } }) fun _ => rfl).raiseAll
            .htCertified).writeTrace .ht
      · have flags : ({ c.flags with htCertified := false } : ChargeFlags) = c.flags := by rw [← certified]
        simpa [reached, flags] using
          h.modifyCharge (f := fun c => { c with htAccrual := c.htAccrual + 1 }) fun _ => rfl

theorem minuteOvertime (ph : Phase) : Worked s k
    { kl with overtime := kl.overtime || (decide (ph = .drying) && kl.turnsOvertime x) } c
    (cs ||| if decide (ph = .drying) && kl.turnsOvertime x then 0x000080 else 0) rs
    (minuteOvertime k (.active ph) x t) := by
  unfold Machine.minuteOvertime
  rw [h.kiln]
  have iff : (ChargeState.active ph = .active .drying ∧ kl.turnsOvertime x = true) ↔
      (decide (ph = .drying) && kl.turnsOvertime x) = true := by simp
  by_cases turns : (decide (ph = .drying) && kl.turnsOvertime x) = true
  · rw [if_pos (iff.2 turns), turns, Bool.or_true]
    exact (h.setKiln _).raiseAll .stepOvertime
  · rw [if_neg fun both => turns (iff.1 both), Bool.eq_false_iff.2 turns, Bool.or_false]
    simpa using h

theorem returnSchedule (b : Charge) (ch : Change) : Worked s k kl c cs rs (t.returnSchedule b ch) := by
  unfold State.returnSchedule
  split
  · exact { h with params := h.params, within := h.within.setInUse rfl _ _ }
  · exact h

theorem kilnChange (m : Kiln) {f : Charge → Charge} (hf : ∀ d, (f d).id = d.id) (kind : TraceKind) :
    Worked s k m (f c) (cs ||| 0x000008)
      (rs ++ [recordOf s.clock k c.id (f c).controlling m kind (f c).state.name]) (t.kilnChange k c.id m f kind) := by
  have work := (((h.setKiln m).modifyCharge hf).raiseAll .kilnPhase).writeTrace kind
  rw [hf] at work
  exact work

/-- The triggers, told by the charge `b` as the minute found it. -/
theorem minuteTrigger {b : Charge} {ph : Phase} (hid : c.id = b.id) (hb : b.state = .active ph) :
    Worked s k
      (kl.triggered x ph (phaseTrigger ph x kl b))
      (c.triggered (phaseTrigger ph x kl b) (nextChange x ph kl.step))
      (cs ||| if (phaseTrigger ph x kl b).isSome then 0x000008 else 0)
      (rs ++ if (phaseTrigger ph x kl b).isSome then
        [recordOf s.clock k c.id c.controlling (kl.triggered x ph (phaseTrigger ph x kl b)) .phase
          (c.triggered (phaseTrigger ph x kl b) (nextChange x ph kl.step)).state.name] else [])
      (minuteTrigger k b x t) := by
  unfold Machine.minuteTrigger Charge.triggered Kiln.triggered
  simp only [hb, h.kiln]
  cases phaseTrigger ph x kl b with
  | none => simpa using h
  | some timeout =>
    have ends := (h.returnSchedule b (nextChange x ph kl.step)).kilnChange ((nextChange x ph kl.step).kiln x kl)
      (f := fun d => Charge.timedOut timeout { d with state := (nextChange x ph kl.step).chargeState d.state })
      (fun d => by cases timeout <;> rfl) .phase
    simp only [State.applyChange, h.kiln, ← hid]
    cases timeout <;> simpa [Charge.timedOut] using ends

theorem minuteChart : Worked s k (kl.charted (s.param 7)) c cs
    (rs ++ if kl.charts (s.param 7) then [recordOf s.clock k c.id c.controlling kl .chart c.state.name] else [])
    (minuteChart k c.id t) := by
  unfold Machine.minuteChart Kiln.charted Kiln.charts
  rw [h.kiln, h.param]
  by_cases running : kl.timer = true
  · by_cases due : s.param 7 ≤ kl.chart + 1
    · have written : Worked s k { kl with chart := 0 } c cs
          (rs ++ [recordOf s.clock k c.id c.controlling kl .chart c.state.name]) _ :=
        (h.setKiln { kl with chart := 0 }).writeTrace .chart
      simpa [running, due] using written
    · simpa [running, due] using h.setKiln { kl with chart := kl.chart + 1 }
  · simpa [running] using h

end Worked

/-- The triggers and the chart on what the parts before them have left, in an active phase (R76). -/
theorem Worked.minuteEnd {b : Charge} {ph : Phase} (h : Worked s k kl c cs rs (minuteBefore k b x s)) (hid : c.id = b.id)
    (hstate : c.state = b.state) (hcontrolling : c.controlling = b.controlling) (hb : b.state = .active ph) :
    let trigger := phaseTrigger ph x kl b
    let state := if trigger.isSome then (nextChange x ph kl.step).chargeState (.active ph) else .active ph
    Worked s k ((kl.triggered x ph trigger).charted (s.param 7)) (c.triggered trigger (nextChange x ph kl.step))
      (cs ||| if trigger.isSome then 0x000008 else 0)
      (rs ++ (if trigger.isSome then
          [recordOf s.clock k b.id b.controlling (kl.triggered x ph trigger) .phase state.name] else []) ++
        if (kl.triggered x ph trigger).charts (s.param 7) then
          [recordOf s.clock k b.id b.controlling (kl.triggered x ph trigger) .chart state.name] else [])
      (minuteParts k b x s) := by
  intro trigger state
  have settled : (c.triggered trigger (nextChange x ph kl.step)).state = state := by
    rw [Charge.triggered, hstate, hb]
  have triggered := h.minuteTrigger (x := x) hid hb
  rw [settled, hid, hcontrolling] at triggered
  have work := triggered.minuteChart
  rw [settled, show (c.triggered trigger (nextChange x ph kl.step)).id = b.id from hid,
    show (c.triggered trigger (nextChange x ph kl.step)).controlling = b.controlling from hcontrolling] at work
  exact work

end

end Sys2Proof.Machine

end

section
/-! SUPPORT. A whole minute: its expiry, the library, and what no minute changes (R46, R76, R89). -/

namespace Sys2Proof.Machine

section

variable {s t : State} {k : KilnNo} {c : Charge} {x : Schedule}

/-- A running timer of a kiln that holds a charge does the seven parts. -/
theorem exec_kilnMinuteExpiry (hr : s.retention.phase = .running) (h : Holds s k c x) (ht : (s.kiln k).timer = true) :
    exec (.kilnMinuteExpiry k) s = .next (minuteParts k c x s) := by
  have minute : s.kilnMinute k = minuteParts k c x s := by simp [State.kilnMinute, h.kilnCharge, h.scheduleOf, ht]
  have expiry : exec (.kilnMinuteExpiry k) s = event (fun u => u.kilnMinute k) s := rfl
  rw [expiry, event_running s hr, minute]

/-- A record that a part writes or not. -/
theorem length_append_choice {α : Type} {l a b : List α} {n : Nat} {p : Prop} [Decidable p] (hl : l.length ≤ n)
    (ha : a.length ≤ 1 := by simp) (hb : b.length ≤ 1 := by simp) : (l ++ if p then a else b).length ≤ n + 1 := by
  rw [List.length_append]
  split <;> omega

/-- No minute changes a port unit but by alerts, or a block that is not its own. -/
theorem minute_frame (h : Within minuteBlocks s t) : (∀ q, { t.port q with pending := (s.port q).pending } = s.port q) ∧
    t = { s with ports := t.ports, charges := t.charges, kilns := t.kilns, library := t.library, trace := t.trace } := by
  refine ⟨fun q => ?_, ?_⟩
  · obtain ⟨m, alerted⟩ := h.alerts q
    rw [alerted]
  · have claims : t.claims = s.claims := h.blocks .claims rfl
    have tracker : t.tracker = s.tracker := h.blocks .tracker rfl
    have lots : t.lots = s.lots := h.blocks .lots rfl
    have packs : t.packs = s.packs := h.blocks .packs rfl
    have label : t.label = s.label := h.blocks .label rfl
    have clock : t.clock = s.clock := h.blocks .clock rfl
    have retention : t.retention = s.retention := h.blocks .retention rfl
    have queue : t.pending = s.pending := h.blocks .queue rfl
    rw [← claims, ← tracker, ← lots, ← packs, ← label, ← clock, ← retention, ← queue]

theorem returnSchedule_library (h : t.library = s.library) (c : Charge) (ch : Change) :
    (t.returnSchedule c ch).library = (s.returnSchedule c ch).library := by
  unfold State.returnSchedule
  split
  · simp only [State.setInUse, State.inUse, State.withLibrary_library, h]
  · exact h

theorem returnSchedule_stays {ch : Change} (h : ch ≠ .dried) (s : State) (c : Charge) : s.returnSchedule c ch = s := by
  unfold State.returnSchedule
  split
  · exact absurd rfl h
  · rfl

/-- A minute gives a schedule back where its trigger dries the charge, told by the kiln as the parts before leave it. -/
theorem minuteParts_library {ph : Phase} {m : Kiln} (hs : c.state = .active ph) (hm : (minuteBefore k c x s).kiln k = m) :
    (minuteParts k c x s).library =
      if (phaseTrigger ph x m c).isSome then (s.returnSchedule c (nextChange x ph m.step)).library else s.library := by
  have before : (minuteBefore k c x s).library = s.library := (minuteBefore_within k c x s).blocks .library rfl
  have charted : (minuteParts k c x s).library = (minuteTrigger k c x (minuteBefore k c x s)).library :=
    (minuteChart_within k c.id _).blocks .library rfl
  rw [charted]
  simp only [minuteTrigger, hs, hm]
  cases phaseTrigger ph x m c with
  | none => exact before
  | some timeout =>
    simp only [State.applyChange, kilnChange_library, hm]
    exact returnSchedule_library before c _

end

end Sys2Proof.Machine

open Sys2Proof Sys2Proof.Machine in
/-- Settles O35: of the seven parts a HELD charge leaves the age, the heat and the chart. -/
theorem heldMinuteFreezesTheKiln : Obligations.HeldMinuteFreezesTheKiln := by
  unfold Obligations.HeldMinuteFreezesTheKiln
  intro k c x ph why s running h hs timer kl age turnsStale stale hot certifies charts m record records
  have name : c.state.name = .held := by rw [hs]; rfl
  have parts : minuteParts k c x s =
      minuteChart k c.id (minuteHeat k c (minuteCount k (.held ph why) (minuteAge k c.id s))) := by
    simp [minuteParts, hs, minuteDeviation, minuteRamp, minuteOvertime, minuteTrigger]
  have counted := (h.worked.minuteAge.minuteCount (.held ph why)).congr (m := m) rfl rfl
    (ds := if turnsStale then 0x000020 else 0) BitVec.zero_or
    (qs := if turnsStale then [record .staleOn] else []) (by rw [name]; rfl)
  have heated := counted.minuteHeat
  rw [show m.isHot (s.param 5) = hot from Kiln.isHot_eq m _, name] at heated
  obtain ⟨state, controlling⟩ := c.heated_keeps hot (s.param 6)
  have work := heated.minuteChart
  have due : m.charts (s.param 7) = charts := by
    rw [Kiln.charts, show m.timer = true from timer, Bool.true_and]
  rw [Charge.heated_id, state, controlling, name, due, Kiln.charted, if_pos (show m.timer = true from timer), due,
    ← parts] at work
  have few : records.length ≤ 3 :=
    length_append_choice (length_append_choice (length_append_choice (l := []) (Nat.le_refl 0)))
  have library : (minuteParts k c x s).library = s.library := by
    have charted : (minuteParts k c x s).library = (minuteTrigger k c x (minuteBefore k c x s)).library :=
      (minuteChart_within k c.id _).blocks .library rfl
    rw [charted, minuteTrigger, hs]
    exact (minuteBefore_within k c x s).blocks .library rfl
  obtain ⟨ports, rest⟩ := minute_frame work.within
  rw [library] at rest
  have charge := work.charge
  have others := work.otherCharges
  rw [Charge.heated_id] at charge others
  exact ⟨_, exec_kilnMinuteExpiry running h timer, work.kiln, charge, fun clear => work.log (clear.mono few),
    work.otherKilns, others, work.lastId, work.ids, ports, rest⟩

end

section

open Sys2Proof Sys2Proof.Machine in
/-- Settles O36: the parts before the triggers leave the record `m`, on which the trigger decides; then the chart. -/
theorem activeMinuteCountsRampsAndTriggers : Obligations.ActiveMinuteCountsRampsAndTriggers := by
  unfold Obligations.ActiveMinuteCountsRampsAndTriggers
  intro k c x ph tg s running h hs timer target kl age turnsStale stale inTolerance on onRun offRun stepOn deviation dry hot
    certifies turnsOvertime d m ends change after state charts record records
  have few : records.length ≤ 5 :=
    length_append_choice (length_append_choice (length_append_choice (length_append_choice
      (length_append_choice (l := []) (Nat.le_refl 0)))))
  have name : c.state.name = ph.name := by rw [hs]; rfl
  -- The parts before the triggers (R79 to R85), each told in the figures of the statement.
  have counted := h.worked.minuteAge.minuteCount (.active ph)
  rw [Kiln.counted_active, name] at counted
  have moved := counted.minuteDeviation ph
  rw [show ((kl.agedTo (s.param 4)).countedIn ph (s.param 1)).deviationAfter (s.param 2) (s.param 3) = deviation from rfl,
    show ((kl.agedTo (s.param 4)).countedIn ph (s.param 1)).deviation = kl.deviation from rfl, name,
    Deviation.traceKind_eq] at moved
  have ramped := (moved.minuteRamp (x := x) ph).congr (m := { m with overtime := kl.overtime })
    (Kiln.ramped_eq (kl := { (kl.agedTo (s.param 4)).countedIn ph (s.param 1) with deviation := deviation }) target x.ramp)
    rfl rfl rfl
  have heated := ramped.minuteHeat
  rw [show ({ m with overtime := kl.overtime } : Kiln).isHot (s.param 5) = hot from Kiln.isHot_eq _ _, name] at heated
  have overtime := heated.minuteOvertime (x := x) ph
  rw [show (decide (ph = .drying) && ({ m with overtime := kl.overtime } : Kiln).turnsOvertime x) = turnsOvertime from
    Kiln.turnsOvertime_eq _ x ph, BitVec.zero_or, ← hs] at overtime
  have before := overtime.congr (m := m) (d := d) rfl rfl rfl rfl
  -- The triggers and the chart (R86 to R90), and what the minute leaves as it was.
  obtain ⟨kept, controlling⟩ := c.heated_keeps hot (s.param 6)
  have id_eq : d.id = c.id := c.heated_id ..
  have shown (kind : TraceKind) (st : StateName) :
      recordOf s.clock k c.id c.controlling (m.triggered x ph (phaseTrigger ph x m c)) kind st = record after kind st := by
    have fresh : (m.triggered x ph (phaseTrigger ph x m c)).stale = stale := m.triggered_stale ..
    have settled : ({ m.triggered x ph (phaseTrigger ph x m c) with stale := stale } : Kiln) =
        m.triggered x ph (phaseTrigger ph x m c) := by rw [← fresh]
    exact congrArg (recordOf s.clock k c.id c.controlling · kind st) settled.symm
  have work := before.minuteEnd id_eq kept controlling hs
  simp only [shown] at work
  have logged := work.congr (qs := records) rfl rfl rfl rfl
  obtain ⟨ports, rest⟩ := minute_frame work.within
  have library : (minuteParts k c x s).library = if ends then (s.returnSchedule c change).library else s.library :=
    minuteParts_library hs before.kiln
  have charge := work.charge
  have others := work.otherCharges
  rw [show (d.triggered (phaseTrigger ph x m c) change).id = c.id from id_eq] at charge others
  refine ⟨_, exec_kilnMinuteExpiry running h timer, work.kiln, charge.trans ?settled, fun he hd n hn => ?dried,
    fun hstays => ?stands, fun clear => logged.log (clear.mono few), work.otherKilns, others, work.lastId, work.ids, ports, rest⟩
  case settled =>
    rw [Charge.triggered, show d.state = .active ph from kept.trans hs]
  case dried =>
    rw [library, if_pos he, hd]
    simp only [State.returnSchedule, hn]
    rfl
  case stands =>
    rw [library]
    rcases hstays with he | hd
    · rw [he]
      rfl
    · rw [returnSchedule_stays hd]
      exact ite_self _

end

section
/-! SUPPORT. The queries at their takes: how their bodies are read, and the items each answers (R97, R139, R140, R150, R167, R168,
R184, R190). -/

namespace Sys2Proof.Machine

section

variable {s t : State} {p : Port} {r : Request} {k : KilnNo} {c : Charge}

/-- A take whose act answers the items `b`, written as `b'`. -/
theorem exec_take_items {i : Instr} {code : Byte} {b b' : List Field} (ht : takenBy i = some (p, code)) (hr : Offers s p code r)
    (ha : actOf i p r s = .ok (t, b)) (hb : b = b') : exec i s = .next (t.done p r b') :=
  hb ▸ exec_take_done ht hr ha

/-! ## Reading the bodies -/

theorem readTraceRead_bytes {first n : Nat} (hf : 1 ≤ first ∧ first ≤ 4294967295) (hn : 1 ≤ n ∧ n ≤ 8) (rest : List Byte) :
    readTraceRead (beBytes 4 first ++ beBytes 1 n ++ rest) = .ok (first, n) := by
  have first_read := readNat_beBytes (w := 4) (lo := 1) (hi := max32) (n := first) hf (by omega)
  simp (disch := omega) only [readTraceRead, fieldsOf, List.append_assoc, first_read, readNat_beBytes, ok_bind]
  rfl

/-- The form alone, which is all that the forms 0 and 3 carry. -/
theorem readRunForm_form {form : Nat} (h : form ≤ 3) (rest : List Byte) : readRunForm (beBytes 1 form ++ rest) =
    if form = 0 then .ok .summary
    else if form = 3 then .ok .sortMap
    else readNat 1 1 48 { rest := rest, index := 2 } >>= fun x => .ok (if form = 1 then .queueA x.1 else .queueB x.1) := by
  simp (disch := omega) only [readRunForm, fieldsOf, readNat_beBytes, ok_bind]
  rfl

theorem readRunForm_queue {form first : Nat} (h : form = 1 ∨ form = 2) (hf : 1 ≤ first ∧ first ≤ 48) (rest : List Byte) :
    readRunForm (beBytes 1 form ++ beBytes 1 first ++ rest) = .ok (if form = 1 then .queueA first else .queueB first) := by
  rw [List.append_assoc, readRunForm_form (by omega), if_neg (by omega), if_neg (by omega),
    readNat_beBytes hf (by omega), ok_bind]

theorem readPackForm_form {form : Nat} (h : form ≤ 2) (rest : List Byte) : readPackForm (beBytes 1 form ++ rest) =
    if form = 1 then .ok .listing
    else if form = 2 then .ok .bins
    else readNat 2 1 65535 { rest := rest, index := 2 } >>= fun x => .ok (.single x.1) := by
  simp (disch := omega) only [readPackForm, fieldsOf, readNat_beBytes, ok_bind]
  rfl

theorem readPackForm_single {id : Nat} (h : 1 ≤ id ∧ id ≤ 65535) (rest : List Byte) :
    readPackForm (beBytes 1 0 ++ beBytes 2 id ++ rest) = .ok (.single id) := by
  rw [List.append_assoc, readPackForm_form (by omega), if_neg (by omega), if_neg (by omega), readNat_beBytes h (by omega),
    ok_bind]

/-! ## KILN STATUS (R97) -/

theorem kilnStatusAct_eq (hb : readKilnOnly r.body = .ok k) : kilnStatusAct p r s = .ok (s, s.kilnStatusFields k) := by
  rw [kilnStatusAct, hb]; rfl

/-- The items of the kiln record itself, between those of its charge, with the step count shown (R97). -/
def Kiln.statusItems (kl : Kiln) (steps : Nat) : List Field :=
  [.num 1 kl.step, .num 1 steps, .num 2 kl.dry, .num 2 kl.wet, .num 2 ((kl.target.map KilnTarget.dry).getD 0),
    .num 2 ((kl.target.map KilnTarget.depression).getD 0), .num 2 kl.stepOn, .num 2 kl.phaseOn,
    .sym (.deviation kl.deviation), .flag kl.overtime, .flag kl.stale, .num 2 kl.age] ++ reportFields kl.report

theorem kilnStatusFields_empty (hl : (s.kiln k).link = none) : s.kilnStatusFields k =
    [.num 1 (k.val + 1), .sym (.state .empty), .num 2 0, .absent 1, .absent 1] ++ (s.kiln k).statusItems 0 ++
      [.absent 2, .absent 2, .absent 1, .absent 1] := by
  have empty : s.kilnCharge k = none := by simp [State.kilnCharge, hl]
  simp only [State.kilnStatusFields, State.kilnState, empty]
  rfl

theorem kilnStatusFields_occupied (hl : (s.kiln k).link = some c.id) (hc : s.charge c.id = some c) : s.kilnStatusFields k =
    [.num 1 (k.val + 1), .sym (.state c.state.name), .num 2 c.id] ++ c.state.heldFields ++
      (s.kiln k).statusItems (s.shownSteps (some c)) ++
      [optNum 2 c.controlling, optNum 2 c.wettest, .num 1 c.htAccrual, .flag c.flags.htCertified] := by
  have charge : s.kilnCharge k = some c := by simp [State.kilnCharge, hl, hc]
  simp only [State.kilnStatusFields, State.kilnState, charge, Kiln.statusItems, List.append_assoc]
  rfl

/-! ## TRACE READ (R190) -/

theorem traceReadAct_eq {first n : Nat} (hb : readTraceRead r.body = .ok (first, n)) : traceReadAct p r s =
    (require (decide (s.trace.oldest ≤ first)) (.noSuchSequence s.trace.oldest) >>= fun _ =>
      .ok (s, [.num 4 s.trace.oldest, .num 4 s.trace.next, .num 1 (s.trace.from_ first n).length] ++
        (s.trace.from_ first n).flatMap TraceRecord.fields)) := by
  rw [traceReadAct, hb]; rfl

/-- The oldest held sequence is that of the oldest record after a wrap (R186, R188). -/
theorem TraceLog.oldest_eq (g : TraceLog) : g.oldest = match g.ring with
    | y :: _ => if g.next = 1 then y.seq else g.next - g.ring.length
    | [] => g.next := by
  unfold TraceLog.oldest TraceLog.wrapped
  cases h : g.ring with
  | nil => simp
  | cons y l => by_cases next : g.next = 1 <;> simp [next]

/-! ## LOT QUERY (R150) -/

theorem lotQueryAct_table (hb : readOne 1 0 255 r.body = .ok 0) : lotQueryAct p r s =
    .ok (s, [.num 1 s.lots.lots.length, .num 1 (4 - s.lots.lots.length), .num 1 s.lots.last] ++
      s.lots.lots.flatMap Lot.listFields) := by
  rw [lotQueryAct, hb]; rfl

theorem lotQueryAct_single {n : Nat} (hb : readOne 1 0 255 r.body = .ok n) (hn : n ≠ 0) :
    lotQueryAct p r s = (orRefuse (s.lot n) .noSuch >>= fun y => .ok (s, y.fields)) := by
  rw [lotQueryAct, hb]
  exact if_neg hn

/-! ## PACK QUERY (R167, R168) -/

theorem packQueryAct_single {id : Nat} (hb : readPackForm r.body = .ok (.single id)) :
    packQueryAct p r s = (orRefuse (s.pack id) .noSuch >>= fun q => .ok (s, q.fields s.packs.closeList)) := by
  rw [packQueryAct, hb]; rfl

theorem packQueryAct_listing (hb : readPackForm r.body = .ok .listing) :
    packQueryAct p r s = .ok (s, s.packs.listing) := by
  rw [packQueryAct, hb]; rfl

theorem packQueryAct_bins (hb : readPackForm r.body = .ok .bins) :
    packQueryAct p r s = .ok (s, (List.range 20).flatMap fun i => s.binFields (i + 1)) := by
  rw [packQueryAct, hb]; rfl

/-! ## RUN STATUS (R139, R140) -/

theorem runStatusAct_summary (hb : readRunForm r.body = .ok .summary) :
    runStatusAct p r s = .ok (s.withRun (s.tracker.run.map Run.clearSticky), s.tracker.summaryForm) := by
  rw [runStatusAct, hb]; rfl

theorem runStatusAct_queueA {first : Nat} (hb : readRunForm r.body = .ok (.queueA first)) :
    runStatusAct p r s = .ok (s, queueForm ((s.tracker.run.map Run.queueA).getD []) first) := by
  rw [runStatusAct, hb]; rfl

theorem runStatusAct_queueB {first : Nat} (hb : readRunForm r.body = .ok (.queueB first)) :
    runStatusAct p r s = .ok (s, queueForm ((s.tracker.run.map Run.queueB).getD []) first) := by
  rw [runStatusAct, hb]; rfl

theorem runStatusAct_sortMap (hb : readRunForm r.body = .ok .sortMap) : runStatusAct p r s =
    .ok (s, .num 1 s.tracker.sortMap.length :: s.tracker.sortMap.flatMap SortEntry.fields) := by
  rw [runStatusAct, hb]; rfl

theorem validCount_eq (l : List Bool) : validCount l = l.count true := by
  rw [validCount, List.count, List.countP_eq_length_filter]
  exact congrArg (fun f => (l.filter f).length) (funext fun b => by cases b <;> rfl)

/-- Without a run the summary form leaves the tracker as it was. -/
theorem withRun_absent (h : s.tracker.run = none) : s.withRun (s.tracker.run.map Run.clearSticky) = s := by
  have same : ({ s.tracker with run := none } : Tracker) = s.tracker := by rw [← h]
  rw [h, State.withRun, Option.map_none, same]
  rfl

end

end Sys2Proof.Machine

end

section

open Sys2Proof Sys2Proof.Machine in
/-- Settles O39: the bodies read back, then each query by its form, its items compared one by one. -/
theorem queriesReportTheStateAsItStands : Obligations.QueriesReportTheStateAsItStands := by
  unfold Obligations.QueriesReportTheStateAsItStands
  refine ⟨fun rest => ⟨fun first n h1 h2 h3 h4 => readTraceRead_bytes ⟨h1, h2⟩ ⟨h3, h4⟩ rest,
    readRunForm_form (form := 0) (by decide) rest, readRunForm_form (form := 3) (by decide) rest,
    fun first h1 h2 => ⟨readRunForm_queue (.inl rfl) ⟨h1, h2⟩ rest, readRunForm_queue (.inr rfl) ⟨h1, h2⟩ rest⟩,
    fun id h1 h2 => readPackForm_single ⟨h1, h2⟩ rest, readPackForm_form (form := 1) (by decide) rest,
    readPackForm_form (form := 2) (by decide) rest⟩, fun p r s => ?queries⟩
  intro counts
  refine ⟨fun k hr hb => ?kiln, fun first n hr hb => ?trace, fun n hr hb => ?lot, fun hr => ?pack, fun hr => ?printer,
    fun hr => ?run⟩
  case kiln =>
    intro kl record
    have items (steps : Nat) : kl.statusItems steps = record steps := by
      simp only [Kiln.statusItems, reportFields, record]
      cases kl.target <;> cases kl.report <;> rfl
    refine ⟨fun hl => ?empty, fun c hl hc => ?occupied⟩
    case empty =>
      refine exec_take_items rfl hr (kilnStatusAct_eq (p := p) hb) ?_
      rw [kilnStatusFields_empty hl, items]
    case occupied =>
      refine exec_take_items rfl hr (kilnStatusAct_eq (p := p) hb) ?_
      have steps : s.shownSteps (some c) = if c.state = .dried then 0
          else match c.schedule.bind s.schedule with | some x => x.steps.count | none => 0 := by
        simp only [State.shownSteps, State.scheduleOf]
        cases c.schedule.bind s.schedule <;> rfl
      rw [kilnStatusFields_occupied hl hc, items, steps]
      cases c.state <;> rfl
  case trace =>
    intro oldest l
    have act := traceReadAct_eq (p := p) (s := s) hb
    rw [show s.trace.oldest = oldest from s.trace.oldest_eq] at act
    refine ⟨fun held => ?_, fun overwritten => ?_⟩
    · rw [decide_eq_true held] at act
      exact exec_take_done rfl hr act
    · rw [decide_eq_false (Nat.not_le.2 overwritten)] at act
      exact exec_take_refused rfl hr act
  case lot =>
    refine ⟨fun h0 => ?table, fun y hn hy => ?single, fun hn hy => ?absent⟩
    case table =>
      subst h0
      exact exec_take_done rfl hr (lotQueryAct_table (p := p) hb)
    all_goals
      have act := lotQueryAct_single (p := p) (s := s) hb hn
      rw [hy, orRefuse] at act
    case single => exact exec_take_done rfl hr act
    case absent => exact exec_take_refused rfl hr act
  case pack =>
    refine ⟨fun id q hb hq => ?single, fun id hb hq => ?absent, fun hb => ?listing, fun hb => ?bins⟩
    case single =>
      have act := packQueryAct_single (p := p) (s := s) hb
      rw [hq, orRefuse] at act
      refine exec_take_items rfl hr act ?_
      simp only [Pack.fields, contributorFields, List.append_assoc]
      cases q.cause <;> rfl
    case absent =>
      have act := packQueryAct_single (p := p) (s := s) hb
      rw [hq, orRefuse] at act
      exact exec_take_refused rfl hr act
    case listing => exact exec_take_done rfl hr (packQueryAct_listing (p := p) hb)
    case bins =>
      refine exec_take_items rfl hr (packQueryAct_bins (p := p) hb) (congrArg (List.flatMap · _) (funext fun i => ?_))
      unfold State.binFields
      cases s.target (i + 1) <;> cases s.openPack (i + 1) <;> rfl
  case printer =>
    refine exec_take_items (t := s) rfl hr rfl ?_
    cases s.label.lastVerify <;> rfl
  case run =>
    intro last listed
    have shownLast : .num 2 s.tracker.stray :: summaryFields s.tracker.summary = last := by
      simp only [last, summaryFields]
      cases s.tracker.summary <;> rfl
    have boards (queue : List Board) (first : Nat) : queueForm queue first = listed queue first := by
      refine congrArg (_ ++ List.flatMap · _) (funext fun b => ?_)
      unfold Board.fields
      cases b.cls <;> rfl
    refine ⟨fun n hb hn => ?summary, fun hb hn => ?idle, fun first hb => ?queueA, fun first hb => ?queueB, fun hb => ?sortMap⟩
    case summary =>
      intro shown
      have act := runStatusAct_summary (p := p) (s := s) hb
      rw [Tracker.summaryForm, hn, shownLast] at act
      refine exec_take_items rfl hr act ?_
      simp only [shown, Run.fields, idList, List.cons_append, List.append_assoc, validCount_eq]
      cases n.state <;> cases n.policy <;> rfl
    case idle =>
      have act := runStatusAct_summary (p := p) (s := s) hb
      rw [withRun_absent hn, Tracker.summaryForm, hn, shownLast] at act
      exact exec_take_done rfl hr act
    case queueA =>
      refine exec_take_items rfl hr (runStatusAct_queueA (p := p) hb) ((boards _ first).trans ?_)
      cases s.tracker.run <;> rfl
    case queueB =>
      refine exec_take_items rfl hr (runStatusAct_queueB (p := p) hb) ((boards _ first).trans ?_)
      cases s.tracker.run <;> rfl
    case sortMap => exact exec_take_done rfl hr (runStatusAct_sortMap (p := p) hb)

end

section
/-! SUPPORT. The moisture arithmetic of the samples and the ramp (R101, R104, R108): a rounded quotient between two whole
numbers, the falling order, and the minutes of a ramp. -/

namespace Sys2Proof.Machine

/-! ## Rounded quotients between whole numbers -/

section
variable {n d k : Nat}

theorem roundHalfUp_le (hd : 0 < d) (h : 2 * n + d < 2 * d * (k + 1)) : roundHalfUp n d ≤ k :=
  Nat.le_of_lt_succ ((Nat.div_lt_iff_lt_mul (by omega)).2 (by rwa [Nat.mul_comm (k + 1)]))

theorem le_roundHalfUp (hd : 0 < d) (h : 2 * d * k ≤ 2 * n + d) : k ≤ roundHalfUp n d :=
  (Nat.le_div_iff_mul_le (by omega)).2 (by rwa [Nat.mul_comm k])

end

/-! ## The falling order (R104) -/

section
variable {l v : List Nat}

theorem insertFalling_eq (a : Nat) (l : List Nat) : insertFalling a l = l.orderedInsert (· ≥ ·) a := by
  induction l with
  | nil => rfl
  | cons b l ih => simp only [insertFalling, List.orderedInsert, ih]

theorem sortFalling_eq (l : List Nat) : sortFalling l = l.insertionSort (· ≥ ·) := by
  induction l with
  | nil => rfl
  | cons a l ih => exact (congrArg (insertFalling a) ih).trans (insertFalling_eq ..)

/-- The falling order of some numbers does not depend on the order they come in. -/
theorem sortFalling_of_perm (h : l.Perm v) (hv : v.Pairwise (· ≥ ·)) : sortFalling l = v := by
  rw [sortFalling_eq]
  exact ((List.perm_insertionSort _ l).trans h).eq_of_pairwise' (List.pairwise_insertionSort _ l) hv

/-! ## The two figures (R104) -/

section
variable {xs : List Sample} (hp : (validMCs xs).Perm v) (hv : v.Pairwise (· ≥ ·))
include hp hv

theorem wettestOf_of_perm : wettestOf xs = v.head? := by rw [wettestOf, sortFalling_of_perm hp hv]

theorem controllingOf_of_perm : controllingOf xs =
    if v.length < 2 then none else some (roundHalfUp (v.take (averagedOf v.length)).sum (averagedOf v.length)) := by
  rw [controllingOf, sortFalling_of_perm hp hv, hp.length_eq]

end

/-- The mean of numbers up to `k` is at most `k`. -/
theorem roundHalfUp_mean_le {d k : Nat} (hd : 0 < d) (hl : l.length ≤ d) (h : ∀ m ∈ l, m ≤ k) :
    roundHalfUp l.sum d ≤ k := by
  have total : l.sum ≤ d * k := (List.sum_le_card_nsmul l k h).trans (Nat.mul_le_mul_right k hl)
  exact roundHalfUp_le hd (by rw [Nat.mul_add, Nat.mul_assoc]; omega)

end

/-! ## The setpoint ramp (R108) -/

section
variable {sp tg a rate : Nat}

theorem rampMinute_at_target (a rate : Nat) : rampMinute tg tg a rate = (tg, 0) := if_pos rfl

theorem rampMinute_jumps (h : sp ≠ tg) (hr : rate = 0) : rampMinute sp tg a rate = (tg, 0) := by
  rw [rampMinute, if_neg h, if_pos hr]

/-- A minute of a limited ramp away from the target: the setpoint and, short of the target, the accumulator. -/
theorem rampMinute_moves (h : sp ≠ tg) (hr : 1 ≤ rate) {sp' : Nat} (hm : moveToward sp tg ((a + rate) / 60) = sp') :
    rampMinute sp tg a rate = (sp', if sp' = tg then 0 else (a + rate) % 60) := by
  rw [rampMinute, if_neg h, if_neg (Nat.ne_of_gt hr), ← hm]
  rfl

theorem rampMinute_up (hr : 1 ≤ rate) (h : sp < tg) (hm : sp + (a + rate) / 60 < tg) :
    rampMinute sp tg a rate = (sp + (a + rate) / 60, (a + rate) % 60) := by
  have moved : moveToward sp tg ((a + rate) / 60) = sp + (a + rate) / 60 := by
    rw [moveToward, if_pos h.le, Nat.min_eq_right hm.le]
  rw [rampMinute_moves h.ne hr moved, if_neg hm.ne]

theorem rampMinute_down (hr : 1 ≤ rate) (h : tg < sp) (hm : tg + (a + rate) / 60 < sp) :
    rampMinute sp tg a rate = (sp - (a + rate) / 60, (a + rate) % 60) := by
  have short : tg < sp - (a + rate) / 60 := by omega
  have moved : moveToward sp tg ((a + rate) / 60) = sp - (a + rate) / 60 := by
    rw [moveToward, if_neg h.not_ge, Nat.max_eq_right short.le]
  rw [rampMinute_moves h.ne' hr moved, if_neg short.ne']

theorem rampMinute_reaches (hr : 1 ≤ rate) (h : sp ≠ tg) (hu : tg ≤ sp + (a + rate) / 60)
    (hd : sp ≤ tg + (a + rate) / 60) : rampMinute sp tg a rate = (tg, 0) := by
  have moved : moveToward sp tg ((a + rate) / 60) = tg := by
    unfold moveToward
    split <;> omega
  rw [rampMinute_moves h hr moved, if_pos rfl]

/-- A further minute's rise, added to the tenths and the sixtieths that `n` minutes have given. -/
theorem ramp_total_succ (n rate : Nat) : (n + 1) * rate / 60 = n * rate / 60 + (n * rate % 60 + rate) / 60 ∧
    (n + 1) * rate % 60 = (n * rate % 60 + rate) % 60 := by
  rw [Nat.succ_mul]
  omega

/-- Upward short of the target, `n` minutes move the setpoint by `n * rate / 60`; the rest stands in the accumulator. -/
theorem ramp_up_iterate (hr : 1 ≤ rate) : ∀ n, sp + n * rate / 60 < tg →
    (fun q : Nat × Nat => rampMinute q.1 tg q.2 rate)^[n] (sp, 0) = (sp + n * rate / 60, n * rate % 60)
  | 0, _ => by simp
  | n + 1, h => by
    obtain ⟨tenths, sixtieths⟩ := ramp_total_succ n rate
    rw [tenths] at h
    rw [Function.iterate_succ_apply', ramp_up_iterate hr n (by omega), rampMinute_up hr (by omega) (by omega), tenths,
      sixtieths, Nat.add_assoc]

theorem ramp_down_iterate (hr : 1 ≤ rate) : ∀ n, tg + n * rate / 60 < sp →
    (fun q : Nat × Nat => rampMinute q.1 tg q.2 rate)^[n] (sp, 0) = (sp - n * rate / 60, n * rate % 60)
  | 0, _ => by simp
  | n + 1, h => by
    obtain ⟨tenths, sixtieths⟩ := ramp_total_succ n rate
    rw [tenths] at h
    rw [Function.iterate_succ_apply', ramp_down_iterate hr n (by omega), rampMinute_down hr (by omega) (by omega), tenths,
      sixtieths, Nat.sub_sub]

end

end Sys2Proof.Machine

open Sys2Proof Sys2Proof.Machine in
/-- Settles O25: the value by the bounds of its rounding, the range at the ends of R58's ranges. -/
theorem ovenDryWeightIsRoundedToNearest : Obligations.OvenDryWeightIsRoundedToNearest := by
  unfold Obligations.OvenDryWeightIsRoundedToNearest
  intro w mc hw hw' hmc hmc'
  obtain ⟨low, high⟩ := roundHalfUp_bounds (w * 1000) (d := 1000 + mc) (by omega)
  refine ⟨?_, ?_, le_roundHalfUp (by omega) (by omega), roundHalfUp_le (by omega) (by omega)⟩
  · rw [ovenDryWeight]
    linarith
  · rw [ovenDryWeight]
    linarith

open Sys2Proof Sys2Proof.Machine in
/-- Settles O27: both figures are read off the falling order `v`, and a mean and a member lie where all of them lie. -/
theorem controllingMCIsTheMeanOfTheWetterHalf : Obligations.ControllingMCIsTheMeanOfTheWetterHalf := by
  unfold Obligations.ControllingMCIsTheMeanOfTheWetterHalf
  intro xs v hp hv
  have controlling := controllingOf_of_perm hp hv
  have wettest := wettestOf_of_perm hp hv
  refine ⟨fun few => controlling.trans (if_pos few), fun enough => controlling.trans (if_neg (Nat.not_lt.2 enough)), wettest,
    fun high => ⟨fun m hm => ?mean, fun m hm => ?largest⟩⟩
  case mean =>
    rw [controlling] at hm
    split at hm <;> cases hm
    exact roundHalfUp_mean_le (by unfold averagedOf; omega) (List.length_take_le ..)
      fun x hx => high x (List.mem_of_mem_take hx)
  case largest =>
    rw [wettest] at hm
    exact high m (List.mem_of_head? hm)

open Sys2Proof Sys2Proof.Machine in
/-- Settles O38: one minute case by case, and by induction the minutes of a ramp short of its target. -/
theorem rampMovesByTheAccumulatedSixtieths : Obligations.RampMovesByTheAccumulatedSixtieths := by
  unfold Obligations.RampMovesByTheAccumulatedSixtieths
  refine ⟨fun sp tg a rate _ _ => ⟨fun h => h ▸ rampMinute_at_target a rate, rampMinute_jumps,
    fun h hr => rampMinute_up hr h, fun h hr => rampMinute_down hr h, fun h hr => rampMinute_reaches hr h⟩,
    fun sp tg rate n hr _ => ?_⟩
  exact ⟨ramp_up_iterate hr n, ramp_down_iterate hr n⟩

end

section
/-! SUPPORT. SAMPLE WEIGHTS at its take (R102 to R106): the body, the samples after it, and the answer. -/

namespace Sys2Proof.Machine

section

variable {s : State} {p : Port} {r : Request} {c : Charge} {id : Nat} {ws : List Nat}

theorem readSampleWeights_bytes (hid : 1 ≤ id ∧ id ≤ 65535) (hl : 1 ≤ ws.length ∧ ws.length ≤ 8)
    (hw : ∀ w ∈ ws, w ≤ 50000) (rest : List Byte) :
    readSampleWeights (beBytes 2 id ++ beBytes 1 ws.length ++ ws.flatMap (beBytes 2) ++ rest) = .ok (id, ws) := by
  obtain ⟨j, weights⟩ := readMany_bytes (item := readNat 2 0 50000) rest ws 3 fun w h tail i =>
    readNat_beBytes ⟨Nat.zero_le w, hw w h⟩ (by have := hw w h; omega) tail i
  simp (disch := omega) only [readSampleWeights, fieldsOf, List.append_assoc, readNat_beBytes, ok_bind, weights]
  rfl

/-! ## The samples after the weights (R102, R103) -/

theorem weigh_zero (x : Sample) : x.weigh 0 = x := rfl

theorem weigh_pos (x : Sample) {w : Nat} (h : w ≠ 0) : x.weigh w =
    if w < x.ovenDry then { x with status := .suspect w 0 }
    else { x with status := .valid w (min 2000 (currentMC x.ovenDry w)) } :=
  if_neg h

/-- Sample by sample: the weight in its place, and none where the weights have ended. -/
theorem getElem?_weighAll : ∀ (xs : List Sample) (ws : List Nat) (i : Nat),
    (weighAll xs ws)[i]? = xs[i]?.map fun x => x.weigh (ws[i]?.getD 0)
  | [], [], _ => rfl
  | [], _ :: _, _ => rfl
  | x :: xs, [], i => by simp [weighAll, weigh_zero]
  | x :: xs, w :: ws, 0 => rfl
  | x :: xs, w :: ws, i + 1 => getElem?_weighAll xs ws i

theorem length_weighAll : ∀ (xs : List Sample) (ws : List Nat), (weighAll xs ws).length = xs.length
  | [], [] => rfl
  | [], _ :: _ => rfl
  | _ :: _, [] => rfl
  | _ :: xs, _ :: ws => congrArg (· + 1) (length_weighAll xs ws)

/-! ## The take -/

/-- What the answer shows of one sample (R102). -/
def Sample.resultFields (x : Sample) : List Field := [.num 1 x.number, optNum 2 x.status.mc, .sym (.sample x.status.mark)]

theorem sampleWeightsAct_eq (hb : readSampleWeights r.body = .ok (id, ws)) :
    sampleWeightsAct p r s = (orRefuse (s.charge id) .noSuch >>= fun c =>
      require (!isReleasedOrLater c.state) .badState >>= fun _ => require (!c.samples.isEmpty) .badState >>= fun _ =>
      require (decide (ws.length ≤ c.samples.length)) .mismatch >>= fun _ =>
      .ok (s.setSamples c (weighAll c.samples ws),
        [.num 2 id, .num 1 (validMCs (weighAll c.samples ws)).length, optNum 2 (controllingOf (weighAll c.samples ws)),
          optNum 2 (wettestOf (weighAll c.samples ws))] ++ (weighAll c.samples ws).flatMap Sample.resultFields)) := by
  rw [sampleWeightsAct, hb]; rfl

theorem isReleasedOrLater_iff (st : ChargeState) :
    isReleasedOrLater st = true ↔ st = .released ∨ st = .planing ∨ st = .planed := by
  cases st <;> simp [isReleasedOrLater]

/-- A charge with a new sample list has the figures of that list (R105, R106). -/
theorem setSamples_eq (hc : s.charge id = some c) (l : List Sample) :
    s.setSamples c l = (s.modifyCharge id fun _ =>
      { c with samples := l, controlling := controllingOf l, wettest := wettestOf l }).raiseIf
        (c.controlling.isSome && (controllingOf l).isNone) .samplesShort := by
  rw [State.setSamples, charge_id hc]
  rfl

end

end Sys2Proof.Machine

open Sys2Proof Sys2Proof.Machine in
/-- Settles O28: the body read back, then the charge by its state and its samples. -/
theorem sampleWeightsApplyInOrder : Obligations.SampleWeightsApplyInOrder := by
  unfold Obligations.SampleWeightsApplyInOrder
  refine ⟨fun id ws rest h1 h2 h3 h4 hw => readSampleWeights_bytes ⟨h1, h2⟩ ⟨h3, h4⟩ hw rest,
    fun p r id ws s hr hb => ?_⟩
  have act := sampleWeightsAct_eq (p := p) (s := s) hb
  refine ⟨fun hc => ?absent, fun c hc => ?present⟩ <;> rw [hc, orRefuse] at act
  case absent => exact exec_take_refused rfl hr act
  case present =>
    rw [ok_bind] at act
    have early (h1 : c.state ≠ .released) (h2 : c.state ≠ .planing) (h3 : c.state ≠ .planed) :
        isReleasedOrLater c.state = false :=
      Bool.eq_false_iff.2 fun h => by simpa [h1, h2, h3] using (isReleasedOrLater_iff _).1 h
    refine ⟨fun h => ?badState, fun h1 h2 h3 h4 many => ?mismatch,
      fun h1 h2 h3 h4 few => ⟨weighAll c.samples ws, ?weighed, length_weighAll .., fun i x hx => ?sample⟩⟩
    case badState =>
      refine exec_take_refused rfl hr (act.trans ?_)
      have refused : isReleasedOrLater c.state = true ∨ c.samples = [] := by
        simpa only [isReleasedOrLater_iff, or_assoc] using h
      rcases refused with later | empty
      · rw [later]
        rfl
      · rw [empty]
        cases isReleasedOrLater c.state <;> rfl
    case mismatch =>
      rw [early h1 h2 h3, List.isEmpty_eq_false_iff.2 h4, decide_eq_false (Nat.not_le.2 many)] at act
      exact exec_take_refused rfl hr act
    case weighed =>
      rw [early h1 h2 h3, List.isEmpty_eq_false_iff.2 h4, decide_eq_true few, setSamples_eq hc] at act
      refine exec_take_items rfl hr act (congrArg (_ ++ List.flatMap · _) (funext fun x => ?_))
      unfold Sample.resultFields
      cases x.status <;> rfl
    case sample =>
      rw [getElem?_weighAll, hx]
      refine congrArg some ?_
      rcases ws[i]? with _ | _ | w
      · rfl
      · rfl
      · exact weigh_pos x (Nat.succ_ne_zero w)

end

section
/-! SUPPORT. The meter receiver and its frames (R129 to R131): how a frame ends, what it does to the run, and the board it is
paired with, in a queue B with room and in a full one. -/

namespace Sys2Proof.Machine

/-! ## Alerts beside other work -/

section
variable (s : State) (q : Bool) (y z : Cause)

theorem PortUnit.raise_comm (u : PortUnit) : (u.raise y).raise z = (u.raise z).raise y := by
  simp only [PortUnit.raise, BitVec.or_assoc]
  rw [BitVec.or_comm (y.bit &&& u.enabled)]

theorem raiseAll_comm : (s.raiseAll y).raiseAll z = (s.raiseAll z).raiseAll y := by
  refine congrArg s.withPorts (Ports.ext_get fun p => ?_)
  simp only [State.raiseAll, State.withPorts_ports, Ports.get_map, PortUnit.raise_comm]

theorem raiseIf_raiseAll : (s.raiseIf q y).raiseAll z = (s.raiseAll z).raiseIf q y := by
  cases q with
  | true => exact raiseAll_comm s y z
  | false => rfl

theorem raiseIf_withTracker (x : Tracker) : (s.raiseIf q y).withTracker x = (s.withTracker x).raiseIf q y := by
  cases q <;> rfl

theorem raiseIf_withCharges (x : ChargeTable) : (s.raiseIf q y).withCharges x = (s.withCharges x).raiseIf q y := by
  cases q <;> rfl

@[simp] theorem raiseIf_tracker : (s.raiseIf q y).tracker = s.tracker := by rw [State.raiseIf_eq]; rfl

@[simp] theorem raiseIf_charges : (s.raiseIf q y).charges = s.charges := by rw [State.raiseIf_eq]; rfl

@[simp] theorem raiseIf_library : (s.raiseIf q y).library = s.library := by rw [State.raiseIf_eq]; rfl

theorem raiseIf_withRun (r : Option Run) : (s.raiseIf q y).withRun r = (s.withRun r).raiseIf q y := by
  rw [State.withRun, raiseIf_tracker, raiseIf_withTracker]; rfl

theorem raiseIf_modifyCharge (id : Nat) (f : Charge → Charge) :
    (s.raiseIf q y).modifyCharge id f = (s.modifyCharge id f).raiseIf q y := by
  rw [State.modifyCharge, raiseIf_charges, raiseIf_withCharges]; rfl

end

/-! ## The receiver (R129) -/

section
variable {s : State}

theorem receiveByte_eq (l : List MeterByte) (x : MeterByte) : receiveByte l x =
    if l = [] then (if x.byte = 0xA5 then [x] else []) else if l.length < 4 then l ++ [x] else l := by
  cases l <;> rfl

theorem frameOf_five (x hi lo t : MeterByte) (b : Byte) (e : Bool) : frameOf [x, hi, lo, t, ⟨b, e⟩] =
    if hi.byte.toNat * 256 + lo.byte.toNat = 65535 ∨ b ≠ x.byte + hi.byte + lo.byte + t.byte ∨
        x.framingError = true ∨ hi.framingError = true ∨ lo.framingError = true ∨ t.framingError = true ∨ e = true
      then none else some (hi.byte.toNat * 256 + lo.byte.toNat, t.byte.toInt) := by
  simp [frameOf, beNat, noContact]

theorem exec_meterByteReceived (h : s.retention.phase = .running) (b : Byte) (e : Bool) :
    exec (.meterByteReceived b e) s =
      .next (s.withTracker { s.tracker with receiver := receiveByte s.tracker.receiver ⟨b, e⟩ }) :=
  event_running (f := fun s => s.withTracker { s.tracker with receiver := receiveByte s.tracker.receiver ⟨b, e⟩ }) _ h

theorem exec_meterFrame (h : s.retention.phase = .running) (b : Byte) (e : Bool) :
    exec (.meterFrame b e) s = .next (if s.tracker.receiver.length = 4
      then s.frameArrives (frameOf (s.tracker.receiver ++ [⟨b, e⟩])) else s) :=
  event_running (f := fun s => s.fifthByte ⟨b, e⟩) _ h

theorem exec_meterIdleTimeout (h : s.retention.phase = .running) :
    exec .meterIdleTimeout s = .next (if s.tracker.receiver = [] then s else s.frameArrives none) := by
  refine (event_running (f := State.meterIdle) _ h).trans ?_
  simp only [State.meterIdle, List.isEmpty_iff]

theorem frameArrives_idle (h : s.tracker.run = none) (f : MeterFrame) :
    s.frameArrives f = s.withTracker { s.tracker with receiver := [] } := by
  simp only [State.frameArrives, State.withTracker_tracker, h]

theorem frameArrives_run {n : Run} (h : s.tracker.run = some n) (f : MeterFrame) :
    s.frameArrives f = (s.withTracker { s.tracker with receiver := [] }).frameInRun n f := by
  simp only [State.frameArrives, State.withTracker_tracker, h]

end

/-! ## The meter state (R131) -/

theorem pushHistory_eq (h : List Bool) (valid : Bool) : pushHistory h valid =
    if 16 < (h ++ [valid]).length then (h ++ [valid]).drop 1 else h ++ [valid] := by
  rw [List.length_append]
  rfl

section
variable (lossRun voidRun : Nat) (valid : Bool) (h : List Bool)

theorem meterAfter_ok : meterAfter lossRun .ok valid voidRun h =
    if valid = false ∧ lossRun ≤ voidRun then .lost else .ok := by
  simp [meterAfter]

theorem meterAfter_lost : meterAfter lossRun .lost valid voidRun h =
    if valid = true ∧ h.reverse.take 3 = [true, true, true] ∧ 8 ≤ h.count true then .ok else .lost := by
  simp [meterAfter, lastThreeValid, validCount_eq, and_assoc]

end

/-! ## The board a frame is paired with (R110 to R112, R114, R115) -/

section
variable {s : State} {n : Run} {f : MeterFrame} {b : Board} {ch : Charge} {sp : Species} {tg raw : Nat} {temp : Int}

/-- A board passed on without a reading (R112). -/
def Board.unread (b : Board) : Board := { b with reading := none, saturated := false, cls := some .noReading }

/-- A board with a corrected reading and its class (R110 to R112). -/
def Board.read (b : Board) (n : Run) (sp : Species) (tg raw : Nat) (temp : Int) : Board :=
  { b with
    reading := some (correctedMC sp (min 600 raw) (max (-20) (min 80 temp)))
    saturated := decide (600 < raw)
    cls := some (classOf tg n.wetBand n.dryBand (correctedMC sp (min 600 raw) (max (-20) (min 80 temp)))
      (decide (600 < raw))) }

theorem meterBoard_unread (h : f = none ∨ n.meter = .lost) : s.meterBoard n f b = b.unread := by
  have nothing : (if n.meter = .ok then f else none) = none := by
    rcases h with h | h <;> simp [h]
  simp only [State.meterBoard, nothing]
  rfl

theorem meterBoard_read (hm : n.meter = .ok) (hc : s.charge b.charge = some ch) (hs : s.species ch.species = some sp)
    (ht : ch.finalTarget = some tg) : s.meterBoard n (some (raw, temp)) b = b.read n sp tg raw temp := by
  simp only [State.meterBoard, hm, hc, Option.bind_some, hs, ht, if_true]
  rfl

theorem feedBack_unread (s : State) (b : Board) : s.feedBack b.unread = s := rfl

theorem fedBack_eq (c : Charge) (minimum limit : Nat) (cls : BoardClass) (reading : Nat) :
    c.fedBack minimum limit cls reading = { c with
      stats := c.stats.classified cls reading
      flags := { c.flags with
        chargeWet := c.flags.chargeWet || turnsWet minimum limit { c with stats := c.stats.classified cls reading } } } := by
  unfold Charge.fedBack
  dsimp only
  split <;> rename_i h <;> simp [h]

/-- The flag is newly set exactly where the charge turns wet. -/
theorem turnsWet_flag (minimum limit : Nat) (c : Charge) :
    ((c.flags.chargeWet || turnsWet minimum limit c) && !c.flags.chargeWet) = turnsWet minimum limit c := by
  unfold turnsWet
  cases c.flags.chargeWet <;> simp

theorem feedBack_read {reading : Nat} {cls : BoardClass} (hr : b.reading = some reading) (hk : b.cls = some cls)
    (hc : s.charge b.charge = some ch) :
    let turns := turnsWet (s.param 12) (s.param 11) { ch with stats := ch.stats.classified cls reading }
    s.feedBack b = (s.modifyCharge b.charge fun _ => { ch with
      stats := ch.stats.classified cls reading
      flags := { ch.flags with chargeWet := ch.flags.chargeWet || turns } }).raiseIf turns .chargeWet := by
  intro turns
  have flag : ((ch.flags.chargeWet || turns) && !ch.flags.chargeWet) = turns :=
    turnsWet_flag _ _ { ch with stats := ch.stats.classified cls reading }
  simp only [State.feedBack, hr, hk, hc, fedBack_eq]
  rw [← charge_id hc]
  exact congrArg (State.raiseIf _ · .chargeWet) flag

/-! ## A frame with a board waiting (R130) -/

section
variable {m : Run} {rest : List Board}

theorem roomInB_room (room : n.queueB.length < 48) : s.roomInB n = (s, n) := if_neg (Nat.not_le.2 room)

theorem frameInRun_underrun (hm : n.metered (s.param 13) f.isSome = m) (ha : n.queueA = []) : s.frameInRun n f =
    ((s.withRun (some { m with aUnderrun := true })).raiseIf (m.meter != n.meter) .meterState).raiseAll .trackOverrun := by
  subst hm
  have empty : (n.metered (s.param 13) f.isSome).queueA = [] := ha
  simp only [State.frameInRun, empty, raiseIf_withRun]
  rfl

/-- With room in queue B the board moves to it, and the feedback follows. -/
theorem frameInRun_pairs (hm : n.metered (s.param 13) f.isSome = m) (ha : n.queueA = b :: rest) (room : n.queueB.length < 48)
    {x : Board} (hx : ((s.withRun (some m)).raiseIf (m.meter != n.meter) .meterState).meterBoard m f b = x) :
    s.frameInRun n f = ((s.withRun (some { m with queueA := rest, queueB := n.queueB ++ [x] })).raiseIf
      (m.meter != n.meter) .meterState).feedBack x := by
  subst hm hx
  have waiting : (n.metered (s.param 13) f.isSome).queueA = b :: rest := ha
  have fits : (n.metered (s.param 13) f.isSome).queueB.length < 48 := room
  simp only [State.frameInRun, waiting, State.pairFrame, roomInB_room fits, raiseIf_withRun]
  rfl

theorem frameInRun_unread (hm : n.metered (s.param 13) f.isSome = m) (ha : n.queueA = b :: rest)
    (room : n.queueB.length < 48) (h : f = none ∨ m.meter = .lost) : s.frameInRun n f =
      (s.withRun (some { m with queueA := rest, queueB := n.queueB ++ [b.unread] })).raiseIf (m.meter != n.meter)
        .meterState :=
  (frameInRun_pairs hm ha room (meterBoard_unread h)).trans (feedBack_unread ..)

theorem frameInRun_read (hm : n.metered (s.param 13) (some (raw, temp)).isSome = m) (ha : n.queueA = b :: rest)
    (room : n.queueB.length < 48) (hk : m.meter = .ok) (hc : s.charge b.charge = some ch)
    (hs : s.species ch.species = some sp) (ht : ch.finalTarget = some tg) {reading : Nat} {cls : BoardClass}
    (hr : (b.read m sp tg raw temp).reading = some reading) (hcls : (b.read m sp tg raw temp).cls = some cls) :
    let stats := ch.stats.classified cls reading
    let turns := turnsWet (s.param 12) (s.param 11) { ch with stats := stats }
    s.frameInRun n (some (raw, temp)) =
      (((s.withRun (some { m with
        queueA := rest, queueB := n.queueB ++ [b.read m sp tg raw temp] })).modifyCharge b.charge fun _ =>
        { ch with stats := stats, flags := { ch.flags with chargeWet := ch.flags.chargeWet || turns } }).raiseIf
          (m.meter != n.meter) .meterState).raiseIf turns .chargeWet := by
  intro stats turns
  have library (r : Option Run) : ((s.withRun r).raiseIf (m.meter != n.meter) .meterState).library = s.library :=
    raiseIf_library ..
  have charges (r : Option Run) : ((s.withRun r).raiseIf (m.meter != n.meter) .meterState).charges = s.charges :=
    raiseIf_charges ..
  have params (r : Option Run) : ((s.withRun r).raiseIf (m.meter != n.meter) .meterState).param = s.param := by
    unfold State.param
    rw [library]
  have moved := frameInRun_pairs hm ha room
    (meterBoard_read (raw := raw) (temp := temp) hk (by rwa [State.charge, charges]) (by rwa [State.species, library]) ht)
  rw [moved, feedBack_read (b := b.read m sp tg raw temp) (ch := ch) hr hcls (by rw [State.charge, charges]; exact hc), params,
    raiseIf_modifyCharge]
  rfl

end

end

/-! ## A full queue B (R120, R130) -/

/-- Two changes under one key, the first of which keeps it, are one. -/
theorem keyModify_keyModify {α : Type} {key : α → Nat} {f : α → α} (hf : ∀ a, key (f a) = key a)
    (k : Nat) (g : α → α) (l : List α) :
    keyModify key k g (keyModify key k f l) = keyModify key k (fun a => g (f a)) l := by
  rw [keyModify, keyModify, List.map_map]
  refine List.map_congr_left fun a _ => ?_
  by_cases h : key a = k <;> simp [h, hf]

/-- The run after the oldest board of queue B is lost, `later` behind it (R120). -/
def Run.afterLoss (n : Run) (later : List Board) : Run :=
  { n with
    queueB := later, bOverrun := true, counters := { n.counters with lost := min 4294967295 (n.counters.lost + 1) } }

section
variable {s : State} {n m : Run} {o : Board} {later : List Board}

theorem loses_run : (s.loses n o later).tracker.run = some (n.afterLoss later) := rfl

/-- The charge of the lost board lands and then settles. -/
theorem loses_eq : s.loses n o later = ((s.withRun (some (n.afterLoss later))).modifyCharge o.charge fun c =>
    c.land.settle (n.sources.contains o.charge)).raiseAll .trackOverrun := by
  have settled (c : Charge) : c.land.settle (n.sources.contains o.charge) =
      if c.land.state = .planing ∧ c.land.stats.inFlight = 0 ∧ o.charge ∉ n.sources then { c.land with state := .planed }
      else c.land := if_congr (by simp) rfl rfl
  simp only [settled]
  rfl

theorem boardLeft_eq (s : State) (id : Nat) : s.boardLeft id =
    s.modifyCharge id fun c => c.land.settle (s.isListed id) :=
  congrArg (fun l => s.withCharges { s.charges with entries := l })
    (keyModify_keyModify (f := Charge.land) (fun _ => rfl) id (Charge.settle (s.isListed id)) s.charges.entries)

theorem loseOldest_eq (hb : n.queueB = o :: later) : s.loseOldest n = (s.loses n o later, n.afterLoss later) := by
  simp only [State.loseOldest, hb, boardLeft_eq, loses_eq]
  rfl

theorem loses_withRun (hs : m.sources = n.sources) :
    (s.withRun (some m)).loses m o later = (s.loses n o later).withRun (some (m.afterLoss later)) := by
  rw [loses_eq, loses_eq, hs]
  rfl

/-- The meter alert and the loss do not touch each other. -/
theorem raiseIf_loses (s : State) (q : Bool) (y : Cause) :
    (s.raiseIf q y).loses n o later = (s.loses n o later).raiseIf q y := by
  rw [loses_eq, loses_eq, raiseIf_withRun, raiseIf_modifyCharge, raiseIf_raiseAll]

theorem roomInB_full (hb : n.queueB = o :: later) (full : n.queueB.length = 48) :
    s.roomInB n = (s.loses n o later, n.afterLoss later) :=
  (if_pos full.ge).trans (loseOldest_eq hb)

/-- A full queue B makes room by the loss of its oldest board. -/
theorem pairFrame_full (hb : n.queueB = o :: later) (full : n.queueB.length = 48) (f : MeterFrame) (b : Board)
    (rest : List Board) : s.pairFrame n f b rest = (s.loses n o later).pairFrame (n.afterLoss later) f b rest := by
  have room : (n.afterLoss later).queueB.length < 48 := by
    rw [hb, List.length_cons] at full
    exact Nat.lt_of_succ_le full.le
  simp only [State.pairFrame, roomInB_full hb full, roomInB_room room]

/-- A frame at a full queue B does what it does once the oldest board is lost. -/
theorem frameInRun_full {f : MeterFrame} (ha : n.queueA ≠ []) (full : n.queueB.length = 48) (hb : n.queueB = o :: later) :
    s.frameInRun n f = (s.loses n o later).frameInRun (n.afterLoss later) f := by
  obtain ⟨b, rest, waiting⟩ := List.exists_cons_of_ne_nil ha
  generalize hm : n.metered (s.param 13) f.isSome = m
  have sources : m.sources = n.sources := hm ▸ rfl
  have queueA : m.queueA = b :: rest := hm ▸ waiting
  have queueB : m.queueB = n.queueB := hm ▸ rfl
  have after : (n.afterLoss later).metered ((s.loses n o later).param 13) f.isSome = m.afterLoss later := hm ▸ rfl
  have queueA' : (m.afterLoss later).queueA = b :: rest := queueA
  simp only [State.frameInRun, hm, after, queueA, queueA']
  rw [pairFrame_full (queueB.trans hb) (queueB ▸ full), raiseIf_loses, loses_withRun sources]
  rfl

end

end Sys2Proof.Machine

open Sys2Proof Sys2Proof.Machine in
/-- Settles O45: the receiver byte by byte, then a frame by the run and its two queues. -/
theorem meterFramesPairWithTheOldestBoard : Obligations.MeterFramesPairWithTheOldestBoard := by
  unfold Obligations.MeterFramesPairWithTheOldestBoard
  intro s running
  refine ⟨fun b e => ?byte, fun b e few => (exec_meterFrame running b e).trans (by rw [if_neg few]),
    fun empty => (exec_meterIdleTimeout running).trans (by rw [if_pos empty]), fun f c ended => ?frame⟩
  case byte =>
    rw [exec_meterByteReceived running, receiveByte_eq]
    rfl
  case frame =>
    -- The command ends the frame `f` in every running state with these bytes held.
    have arrives (t : State) (live : t.retention.phase = .running) (held : t.tracker.receiver = s.tracker.receiver) :
        exec c t = .next (t.frameArrives f) := by
      rcases ended with ⟨rfl, some_held, rfl⟩ | ⟨x, hi, lo, y, b, e, four, rfl, rfl⟩
      · rw [exec_meterIdleTimeout live, if_neg (held ▸ some_held)]
      · rw [exec_meterFrame live, held, four, if_pos (by rfl)]
        exact congrArg (fun f => Host.Outcome.next (t.frameArrives f)) (frameOf_five ..)
    have now := arrives s running rfl
    refine ⟨fun idle => now.trans (by rw [frameArrives_idle idle]; rfl), fun n hn => ?run⟩
    case run =>
      intro seen history voidRun meter m withRun
      rw [frameArrives_run hn] at now
      have meter_eq : meterAfter (s.param 13) n.meter f.isSome voidRun history = meter := by
        simp only [meter]
        cases n.meter with
        | ok => exact meterAfter_ok ..
        | lost => exact meterAfter_lost ..
      have metered : n.metered (s.param 13) f.isSome = m := by
        have pushed : pushHistory n.history f.isSome = history := pushHistory_eq ..
        simp only [m, ← meter_eq, ← pushed]
        rfl
      refine ⟨fun ha => ?underrun, fun b rest ha room void => ?unread,
        fun b rest raw temp ch sp tg ha room hf hk hc hs ht => ?read, fun o later ha full hb => ?full⟩
      case underrun => exact now.trans (congrArg _ (frameInRun_underrun metered ha))
      case unread => exact now.trans (congrArg _ (frameInRun_unread metered ha room void))
      case read =>
        intro reading cls x stats turns
        subst hf
        exact now.trans (congrArg _ (frameInRun_read (s := s.withTracker { s.tracker with receiver := [] }) metered ha room hk
          hc hs ht rfl rfl))
      case full =>
        rw [arrives (s.loses n o later) running rfl, frameArrives_run loses_run, now]
        exact congrArg _ (frameInRun_full ha full hb)

end

section
/-! SUPPORT. The sequences of the trace ring (R186, R188): consecutive, the newest one less than the next, save after a wrap. -/

namespace Sys2Proof.Machine

/-- The part of `TraceOk` that a log says of itself. -/
structure TraceLog.Ok (g : TraceLog) : Prop where
  consecutive : g.ring.IsChain fun x y => x.seq + 1 = y.seq
  newest : ∀ x, g.ring.getLast? = some x → x.seq = if g.next = 1 then 4294967295 else g.next - 1
  next : 1 ≤ g.next ∧ g.next ≤ 4294967295

theorem traceOk_iff (s : State) : TraceOk s ↔ s.trace.Ok :=
  ⟨fun h => ⟨h.consecutive, h.newest, h.next⟩, fun h => ⟨h.consecutive, h.newest, h.next⟩⟩

section

variable {g : TraceLog}

/-- A log ready for a write holds consecutive records, the newest right before the next sequence: those from before a wrap are
gone (R188). -/
theorem TraceLog.Ok.ready (h : g.Ok) : (g.ready.ring.IsChain fun x y => x.seq + 1 = y.seq) ∧
    ∀ y, g.ready.ring.getLast? = some y → y.seq + 1 = g.next := by
  obtain ⟨consecutive, newest, next⟩ := h
  unfold TraceLog.ready
  split
  · exact ⟨.nil, by simp⟩
  · rename_i unwrapped
    refine ⟨consecutive, fun y hy => ?_⟩
    have later : g.next ≠ 1 := fun first => unwrapped (by
      obtain ⟨init, e⟩ := List.getLast?_eq_some_iff.1 hy
      simp [TraceLog.wrapped, first, e])
    have := newest y hy
    rw [if_neg later] at this
    omega

theorem ready_next (g : TraceLog) : g.ready.next = g.next := by
  unfold TraceLog.ready
  split <;> rfl

/-- A record right behind the newest keeps the ring consecutive, whether or not the oldest is discarded. -/
theorem placeNewest_consecutive {ring : List TraceRecord} {x : TraceRecord}
    (consecutive : ring.IsChain fun x y => x.seq + 1 = y.seq)
    (behind : ∀ y, ring.getLast? = some y → y.seq + 1 = x.seq) :
    (placeNewest ring x).IsChain fun x y => x.seq + 1 = y.seq := by
  unfold placeNewest
  refine List.isChain_append.2 ⟨?_, .singleton x, fun y hy z hz => ?_⟩
  · split
    · exact consecutive.drop 1
    · exact consecutive
  · cases hz
    refine behind y ?_
    split at hy
    · rw [List.getLast?_drop] at hy
      split at hy
      · cases hy
      · exact hy
    · exact hy

theorem placeNewest_newest (ring : List TraceRecord) (x : TraceRecord) : (placeNewest ring x).getLast? = some x :=
  List.getLast?_concat

theorem traceOk_traceInv : TraceInv TraceLog.Ok where
  empty := ⟨.nil, by simp [TraceLog.cold], by simp [TraceLog.cold]⟩
  written := fun g x hx h => by
    obtain ⟨consecutive, behind⟩ := h.ready
    obtain ⟨first, last⟩ := h.next
    have after : (g.ready.place x).next = if g.next < 4294967295 then g.next + 1 else 1 := by
      rw [← ready_next g]; rfl
    refine ⟨placeNewest_consecutive consecutive fun y hy => (behind y hy).trans hx.symm, fun y hy => ?_, ?_⟩
    · have newest : y = x := Option.some.inj (hy.symm.trans (placeNewest_newest ..))
      rw [newest, hx, after]
      split <;> split <;> omega
    · rw [after]
      split <;> omega
  marked := fun _ _ h => ⟨h.consecutive, h.newest, h.next⟩

theorem exec_traceOk {i : Instr} {s t : State} (hs : TraceOk s) (h : exec i s = .next t) : TraceOk t :=
  (traceOk_iff t).2 (exec_trace traceOk_traceInv ((traceOk_iff s).1 hs) h)

end

end Sys2Proof.Machine

end

section
/-! SUPPORT. The items of the label engine in their states (R171): what each of its steps leaves of them. -/

namespace Sys2Proof.Machine

/-- `LabelOk`, which looks at the label engine alone. -/
structure LabelEngine.Ok (e : LabelEngine) : Prop where
  halt : e.halt.isSome = true ↔ e.state = .halted
  field : e.field.isSome = true ↔ e.state = .sending
  pending : e.haltPending = true → e.state = .sending ∨ e.state = .verifying
  job : e.state = .sending ∨ e.state = .verifying → e.queue ≠ []
  empty : e.state = .idle → e.queue = []
  idle : e.state = .idle ∨ e.state = .halted → e.bus = .rest

theorem labelOk_iff (s : State) : LabelOk s ↔ s.label.Ok :=
  ⟨fun h => ⟨h.halt, h.field, h.pending, h.job, h.empty, h.idle⟩,
    fun h => ⟨h.halt, h.field, h.pending, h.job, h.empty, h.idle⟩⟩

/-- A job is in progress. -/
def LabelEngine.Works (e : LabelEngine) : Prop := e.state = .sending ∨ e.state = .verifying

section

variable {e f : LabelEngine} {s t : State}

/-! ## The engine alone -/

theorem LabelEngine.Works.not_idle (h : e.Works) : ¬(e.state = .idle ∨ e.state = .halted) := by
  rcases h with h | h <;> simp [h]

theorem LabelEngine.Ok.works (h : e.Ok) (hb : e.bus ≠ .rest) : e.Works := by
  have busy := mt h.idle hb
  cases hs : e.state with
  | idle => exact absurd (.inl hs) busy
  | sending => exact .inl hs
  | verifying => exact .inr hs
  | halted => exact absurd (.inr hs) busy

/-- The bus of an engine with a job in progress is free to be in any state (R177). -/
theorem LabelEngine.Ok.bus (h : e.Ok) (works : e.Works) (b : Bus) : ({ e with bus := b } : LabelEngine).Ok :=
  ⟨h.halt, h.field, h.pending, h.job, h.empty, fun resting => absurd resting works.not_idle⟩

theorem LabelEngine.Ok.rest (h : e.Ok) : ({ e with bus := .rest } : LabelEngine).Ok :=
  ⟨h.halt, h.field, h.pending, h.job, h.empty, fun _ => rfl⟩

/-- How far a field or a verify has come is no concern of R171. -/
theorem LabelEngine.Ok.progress (h : e.Ok) (place : Nat) (reads : List Byte) :
    ({ e with place := place, reads := reads } : LabelEngine).Ok :=
  ⟨h.halt, h.field, h.pending, h.job, h.empty, h.idle⟩

theorem cold_label_ok (n : Nat) : ({ LabelEngine.cold with lastSerial := n } : LabelEngine).Ok := by
  constructor <;> simp [LabelEngine.cold]

/-- Whatever the engine was doing, HALTED fits its items (R171). -/
theorem halted_ok (e : LabelEngine) (reason : HaltReason) : (e.halted reason).Ok := by
  constructor <;> simp [LabelEngine.halted]

/-- After a job the engine is HALTED, or IDLE with nothing left but the queue (R180). -/
theorem afterJob_cases (e : LabelEngine) :
    (e.afterJob.state = .halted ∧ e.afterJob.Ok) ∨ (e.afterJob.state = .idle ∧ (e.afterJob.queue = [] → e.afterJob.Ok)) := by
  unfold LabelEngine.afterJob
  split
  · exact .inl ⟨rfl, halted_ok e .command⟩
  · rename_i running
    exact .inr ⟨rfl, fun empty => by constructor <;> simp_all⟩

theorem LabelEngine.Ok.haltRequested (h : e.Ok) (hf : e.haltRequested = some f) : f.Ok := by
  have pends (works : e.Works) : ({ e with haltPending := true } : LabelEngine).Ok :=
    ⟨h.halt, h.field, fun _ => works, h.job, h.empty, h.idle⟩
  unfold LabelEngine.haltRequested at hf
  split at hf
  · cases hf; exact halted_ok e .command
  · split at hf <;> cases hf
    exact pends (.inl ‹_›)
  · split at hf <;> cases hf
    exact pends (.inr ‹_›)
  · cases hf

/-! ## Jobs (R162, R173, R174) -/

theorem beginCycle_ok (h : s.label.Ok) (works : s.label.Works) (lbsy : Bool) : (s.beginCycle lbsy).label.Ok := by
  unfold State.beginCycle
  split <;> exact h.bus works _

/-- A job that starts sets every item to SENDING's; with no job nothing changes. -/
theorem startHead_ok (h : s.label.queue = [] → s.label.Ok) (lbsy : Bool) : (s.startHead lbsy).label.Ok := by
  unfold State.startHead
  split
  · exact h ‹_›
  · exact beginCycle_ok (by constructor <;> simp) (.inl rfl) lbsy

theorem appendJob_ok (h : s.label.Ok) (lbsy : Bool) (j : Job) : (s.appendJob lbsy j).label.Ok := by
  unfold State.appendJob
  dsimp only
  split
  · exact startHead_ok (fun empty => absurd empty (List.append_ne_nil_of_right_ne_nil _ (List.cons_ne_nil j []))) lbsy
  · rename_i busy
    exact ⟨h.halt, h.field, h.pending, fun _ => List.append_ne_nil_of_right_ne_nil _ (List.cons_ne_nil j []),
      fun idle => absurd idle busy, h.idle⟩

theorem queuePack_ok (h : s.label.Ok) (lbsy : Bool) (id : Nat) : (s.queuePack lbsy id).label.Ok :=
  appendJob_ok (s := s.modifyPack id _) h lbsy _

theorem fillQueue_ok (h : s.label.Ok) (lbsy : Bool) : (s.fillQueue lbsy).label.Ok := by
  have queued : ∀ (l : List Nat) (s : State), s.label.Ok → (l.foldl (fun t id => t.queuePack lbsy id) s).label.Ok := by
    intro l
    induction l with
    | nil => exact fun _ h => h
    | cons id l ih => exact fun s h => ih _ (queuePack_ok h lbsy id)
  exact queued _ s h

/-- A job that has left the queue leaves a halt, or an idle engine that starts the next job (R180). -/
theorem completeJob_ok (s : State) (lbsy : Bool) (j : Job) (rest : List Job) : (s.completeJob lbsy j rest).label.Ok := by
  unfold State.completeJob
  generalize ((s.finishPack j).withLabel { s.label with queue := rest }).fillQueue lbsy = t
  dsimp only
  rcases afterJob_cases t.label with ⟨halted, ok⟩ | ⟨idle, ok⟩
  · rw [if_neg (by rw [State.withLabel_label, halted]; nofun)]
    exact ok
  · rw [if_pos (by exact idle)]
    exact startHead_ok ok lbsy

/-! ## The end of a cycle (R179 to R182) -/

theorem verify_ok (s : State) (lbsy : Bool) (bs : List Byte) : (s.verify lbsy bs).label.Ok := by
  unfold State.verify
  dsimp only
  split
  · exact halted_ok _ .verify
  · split
    · exact completeJob_ok ..
    · exact halted_ok _ .verify

theorem fieldEnd_ok (s : State) (lbsy : Bool) {next : LabelEngine} (h : next.Ok) (works : next.Works) :
    (s.fieldEnd lbsy next).label.Ok := by
  unfold State.fieldEnd
  split
  · exact halted_ok _ .command
  · exact beginCycle_ok h works lbsy

theorem sendNext_ok (h : s.label.Ok) {k : Nat} (hk : s.label.field = some k) (lbsy : Bool) :
    (s.sendNext lbsy k).label.Ok := by
  have sending : s.label.state = .sending := h.field.1 (by rw [hk]; rfl)
  have unhalted : ¬s.label.halt.isSome = true := fun halted => by rw [h.halt.1 halted] at sending; cases sending
  have job : s.label.queue ≠ [] := h.job (.inl sending)
  unfold State.sendNext
  split
  · exact fieldEnd_ok s lbsy (by constructor <;> simp_all) (.inr rfl)
  · split
    · exact beginCycle_ok (s := s.withLabel _) (h.progress (s.label.place + 1) s.label.reads) (.inl sending) lbsy
    · exact fieldEnd_ok s lbsy ⟨h.halt, by simp [sending], h.pending, h.job, h.empty, h.idle⟩ (.inl sending)

theorem readNext_ok (h : s.label.Ok) (works : s.label.Works) (lbsy : Bool) (ld : Byte) : (s.readNext lbsy ld).label.Ok := by
  unfold State.readNext
  split
  · exact beginCycle_ok (s := s.withLabel _) (h.progress s.label.place (s.label.reads ++ [ld])) works lbsy
  · exact verify_ok ..

theorem cycleEnd_ok (h : s.label.Ok) (lbsy : Bool) (ld : Byte) : (s.cycleEnd lbsy ld).label.Ok := by
  unfold State.cycleEnd
  split
  · rename_i c hb
    dsimp only
    split
    · exact sendNext_ok (s := s.withLabel _) h.rest ‹_› lbsy
    · exact readNext_ok (s := s.withLabel _) h.rest (h.works (by rw [hb]; nofun)) lbsy ld
  · exact h

theorem busyFalls_ok (h : s.label.Ok) : s.busyFalls.label.Ok := by
  unfold State.busyFalls
  split
  · rename_i n hb
    exact h.bus (h.works (by rw [hb]; nofun)) _
  · exact h

theorem busyTimeout_ok (h : s.label.Ok) : s.busyTimeout.label.Ok := by
  unfold State.busyTimeout
  split
  · exact halted_ok _ .timeout
  · exact h

/-- RESUME PRINTER (R183): the head job starts, an empty queue leaves the engine IDLE, or a pending halt is taken back. -/
theorem resumed_ok (h : s.label.Ok) {lbsy : Bool} (ht : s.resumed lbsy = some t) : t.label.Ok := by
  have unhalts : ({ s.label with haltPending := false } : LabelEngine).Ok :=
    ⟨h.halt, h.field, nofun, h.job, h.empty, h.idle⟩
  unfold State.resumed at ht
  split at ht
  · rename_i halted
    have unfielded : ¬s.label.field.isSome = true := fun sends => by rw [h.field.1 sends] at halted; cases halted
    have unpending : ¬s.label.haltPending = true := fun pends => by rcases h.pending pends with e | e <;> simp [e] at halted
    have rests := h.idle (.inr halted)
    split at ht <;> cases ht
    · rename_i empty
      constructor <;> simp_all
    · rename_i waiting
      exact startHead_ok (fun empty => absurd (List.isEmpty_iff.2 empty) waiting) lbsy
  · split at ht <;> cases ht
    exact unhalts
  · split at ht <;> cases ht
    exact unhalts
  · cases ht

/-! ## Packs that close (R161, R162) -/

theorem closePack_ok (h : s.label.Ok) (lbsy : Bool) (id : Nat) (cause : CloseCause) :
    (s.closePack lbsy id cause).label.Ok := by
  unfold State.closePack State.offerPack
  dsimp only
  split
  · exact queuePack_ok (by exact h) lbsy id
  · exact h

theorem addBoard_ok (h : s.label.Ok) (lbsy : Bool) (q : Pack) (b : HandedBoard) : (s.addBoard lbsy q b).label.Ok := by
  have added : (s.boardAdded q b).label.Ok := by
    unfold State.boardAdded
    split <;> exact h
  rw [addBoard_eq]
  split
  · exact closePack_ok added lbsy q.id _
  · exact added

theorem openForBoard_ok (h : s.label.Ok) (lbsy : Bool) (bin : Nat) (b : HandedBoard) :
    (s.openForBoard lbsy bin b).1.label.Ok := by
  unfold State.openForBoard
  split
  · exact addBoard_ok (by exact h) lbsy _ b
  · unfold State.refuseBoard
    dsimp only
    split <;> exact h

theorem handToBin_ok (h : s.label.Ok) (lbsy : Bool) (bin : Nat) (b : HandedBoard) :
    (s.handToBin lbsy bin b).1.label.Ok := by
  unfold State.handToBin
  split
  · split
    · exact addBoard_ok h lbsy _ b
    · exact openForBoard_ok (closePack_ok h lbsy _ .keyChange) lbsy bin b
  · exact openForBoard_ok h lbsy bin b

theorem sortBoard_ok (h : s.label.Ok) (lbsy : Bool) (n : Run) (b : Board) (g : GradeReport) :
    (s.sortBoard lbsy n b g).1.label.Ok := by
  rcases sortBoard_cases s lbsy n b g with e | ⟨sp, th, volume, e⟩ | ⟨bin, x, _, e⟩ <;> rw [e]
  · exact h
  · have same : (s.handToLot sp th b.charge volume).1.label = s.label := ((Within.refl s).handToLot
      (P := fun b => match b with | .charges | .lots => true | _ => false) rfl rfl sp th b.charge volume).blocks .label rfl
    rwa [same]
  · exact handToBin_ok h lbsy bin x

/-! ## Every command -/

/-- A RESTART and a warm start begin with an empty engine and queue the CLOSED packs again (R185). -/
theorem restartedBlocks_label {why : HoldReason} {eye lbsy : Bool} (h : RestartedBlocks s t why eye lbsy) : t.label.Ok := by
  obtain ⟨u, hu, _, label⟩ := h.label
  rw [label, hu]
  exact fillQueue_ok (by exact cold_label_ok s.label.lastSerial) lbsy

theorem exec_resets_label {c : Instr} (hr : resetsPorts c = true) (hs : s.label.Ok) (h : exec c s = .next t) :
    t.label.Ok := by
  cases c with
  | restart p eye lbsy =>
    rcases exec_restart_cases h with rfl | ⟨r, rfl⟩
    · exact hs
    · rw [restarted_eq, restartPorts_started]
      exact restartedBlocks_label restartBlocks_blocks
  | powerOnReset => cases h; exact hs.rest
  | coldStart eye cut =>
    rcases exec_coldStart_eq eye cut s with e | e <;> rw [e] at h <;> cases h
    · exact hs
    · exact cold_label_ok 0
  | warmStart eye lbsy e =>
    rcases exec_warmStart_cases h with rfl | rfl | ⟨charges, packs, n, rfl⟩
    · exact hs
    · rw [warmStarted_started]
      exact restartedBlocks_label restartBlocks_blocks
    · rw [warmCut_eq]
      exact hs
  | mainPowerFail low =>
    by_cases hp : s.retention.phase = .off
    · rw [exec_mainPowerFail_off hp] at h
      cases h
      exact hs
    · rw [exec_mainPowerFail_on hp] at h
      cases h
      exact hs.rest
  | _ => cases hr

theorem exec_labelOk {i : Instr} (hs : LabelOk s) (h : exec i s = .next t) : LabelOk t := by
  rw [labelOk_iff] at hs ⊢
  have take {x : Port × Byte} (ht : takenBy i = some x) (ha : (actOf i).Keeps fun u => u.label.Ok) : t.label.Ok :=
    take_keeps (Inv := fun u => u.label.Ok) (fun _ _ h => h) ht ha hs h
  have event {f : State → State} (hf : (f s).label.Ok) (he : Machine.event f s = .next t) : t.label.Ok :=
    event_keeps (Inv := fun u => u.label.Ok) hs (fun _ => hf) he
  cases hr : resetsPorts i with
  | true => exact exec_resets_label hr hs h
  | false =>
    cases i with
    | boardGrade p lbsy =>
      refine take rfl fun p r _ _ h => boardGradeAct_gives (Q := fun u => u.label.Ok) p r fun n b g d _ => ?_
      rw [(dispatch_records ..).2.2]
      exact sortBoard_ok h lbsy n b g
    | setBinTarget p lbsy =>
      refine take rfl fun _ _ _ _ h => .bind fun _ => .bind fun _ => .pure ?_
      dsimp only
      split
      · exact closePack_ok (s := State.setTarget _ _ _) h lbsy _ _
      · exact h
    | closePack p lbsy =>
      exact take rfl fun _ _ _ _ h => .bind fun _ => .bind fun _ => .pure (closePack_ok h lbsy _ _)
    | reprint p lbsy =>
      exact take rfl fun _ _ _ _ h => .bind fun _ => .bind fun _ => .bind fun _ => .bind fun _ => .bind fun _ =>
        .pure (appendJob_ok h lbsy _)
    | busCycleComplete lbsy ld => exact event (f := fun s => s.cycleEnd lbsy ld) (cycleEnd_ok hs lbsy ld) h
    | lbsyFall => exact event (f := State.busyFalls) (busyFalls_ok hs) h
    | printerTimeout => exact event (f := State.busyTimeout) (busyTimeout_ok hs) h
    | haltPrinter =>
      exact take rfl fun _ _ _ _ h => .bind fun _ => .bind' fun _ he => .pure (h.haltRequested (orRefuse_ok he))
    | resumePrinter p lbsy =>
      exact take rfl fun _ _ _ _ h => .bind fun _ => .bind' fun _ ht => .pure (resumed_ok h (orRefuse_ok ht))
    | restart | powerOnReset | coldStart | warmStart | mainPowerFail => cases hr
    | _ => exact (exec_blocks h .label rfl : t.label = s.label) ▸ hs

end

end Sys2Proof.Machine

end

section
/-! SUPPORT. Every board of a run accounted for (R120): what the eye, the meter frames, the grade reports and the run requests
leave of the equation. -/

namespace Sys2Proof.Machine

/-- The equation of R120 for one run. -/
def Run.Balanced (n : Run) : Prop := n.counters.boardsIn < 4294967295 → n.counters.boardsIn = n.accounted

section

variable {s t : State} {m n : Run}

/-- No board enters and as many are accounted for as before. -/
theorem Run.Balanced.of_eq (h : n.Balanced) (hin : m.counters.boardsIn = n.counters.boardsIn)
    (ha : n.accounted < 4294967295 → m.accounted = n.accounted) : m.Balanced := fun below => by
  rw [hin] at below ⊢
  have balanced := h below
  rw [ha (balanced ▸ below), balanced]

theorem BoardsOk.balanced (h : BoardsOk s) (hr : s.tracker.run = some n) : n.Balanced := h n hr

theorem boardsOk_of_run (hr : s.tracker.run = some n) (h : n.Balanced) : BoardsOk s := fun m hm => by
  cases hr.symm.trans hm
  exact h

theorem boardsOk_of_none (hr : s.tracker.run = none) : BoardsOk s := fun _ hm => nomatch hr.symm.trans hm

theorem BoardsOk.of_run (h : BoardsOk s) (hr : t.tracker.run = s.tracker.run) : BoardsOk t := fun n hn => h n (hr ▸ hn)

/-! ## Boards enter, pass on and leave -/

/-- The oldest board of queue B is dispatched as lost (R120, R130). -/
theorem loseOldest_balanced (s : State) (h : n.Balanced) :
    (s.loseOldest n).2.Balanced ∧ (s.loseOldest n).2.queueA = n.queueA := by
  unfold State.loseOldest
  split
  · exact ⟨h, rfl⟩
  · rename_i b rest hb
    refine ⟨h.of_eq rfl fun below => ?_, rfl⟩
    simp only [Run.accounted, hb, List.length_cons, satInc, max32] at below ⊢
    omega

theorem roomInB_balanced (s : State) (h : n.Balanced) :
    (s.roomInB n).2.Balanced ∧ (s.roomInB n).2.queueA = n.queueA := by
  unfold State.roomInB
  split
  · exact loseOldest_balanced s h
  · exact ⟨h, rfl⟩

/-- A board passes from queue A to queue B (R127, R130). -/
theorem Run.Balanced.pass (h : n.Balanced) {b : Board} {rest : List Board} (ha : n.queueA = b :: rest) (x : Board) :
    ({ n with queueA := rest, queueB := n.queueB ++ [x] } : Run).Balanced :=
  h.of_eq rfl fun _ => by
    simp only [Run.accounted, ha, List.length_append, List.length_cons, List.length_nil]
    omega

theorem roomInA_balanced (s : State) (h : n.Balanced) : (s.roomInA n).2.Balanced := by
  unfold State.roomInA
  split
  · unfold State.overrunA
    split
    · exact h
    · rename_i b rest hb
      obtain ⟨balanced, queueA⟩ := roomInB_balanced s h
      exact balanced.pass (queueA.trans hb) _
  · exact h

/-- One board more has come in, and stands in queue A (R127). -/
theorem Run.Balanced.append (h : n.Balanced) (id : Nat) : (n.append id).Balanced := fun below => by
  unfold Run.Balanced at h
  simp only [Run.append, Run.accounted, satInc, max32, List.length_append, List.length_singleton] at h below ⊢
  omega

theorem eyeRises_boardsOk (h : BoardsOk s) : BoardsOk s.eyeRises := by
  unfold State.eyeRises
  split
  · exact h
  · dsimp only
    split
    · rename_i n hn
      have arrives := (roomInA_balanced (s.withTracker { s.tracker with eye := true }) (h.balanced (runOpen_eq hn).1)).append
      rw [boardArrives_eq]
      exact boardsOk_of_run rfl (arrives _)
    · exact h.of_run rfl

/-! ## Meter frames (R130, R131) -/

theorem frameInRun_boardsOk (hn : n.Balanced) (f : MeterFrame) : BoardsOk (s.frameInRun n f) := by
  have metered : (n.metered (s.param 13) f.isSome).Balanced := hn.of_eq rfl fun _ => rfl
  unfold State.frameInRun
  dsimp only
  split
  · exact boardsOk_of_run rfl (metered.of_eq rfl fun _ => rfl)
  · rename_i b rest hb
    unfold State.pairFrame
    dsimp only
    refine BoardsOk.of_run ?_ (congrArg Tracker.run (feedBack_tracker ..))
    obtain ⟨balanced, queueA⟩ := roomInB_balanced _ metered
    exact boardsOk_of_run rfl (balanced.pass (queueA.trans hb) _)

theorem frameArrives_boardsOk (h : BoardsOk s) (f : MeterFrame) : BoardsOk (s.frameArrives f) := by
  unfold State.frameArrives
  dsimp only
  split
  · exact frameInRun_boardsOk (h.balanced ‹_›) f
  · exact h.of_run rfl

/-! ## Grade reports (R133 to R135) -/

/-- Every decision names one of the three chutes (R135). -/
theorem sortBoard_chute (s : State) (lbsy : Bool) (n : Run) (b : Board) (g : GradeReport) :
    (s.sortBoard lbsy n b g).2.chute = 1 ∨ (s.sortBoard lbsy n b g).2.chute = 2 ∨ (s.sortBoard lbsy n b g).2.chute = 3 := by
  unfold State.sortBoard
  split
  · dsimp only
    split
    · exact .inr (.inl rfl)
    · exact .inr (.inr rfl)
  · split
    · exact .inr (.inr rfl)
    · unfold State.sortToBin
      dsimp only
      split
      · exact .inr (.inr rfl)
      · split
        · exact .inl rfl
        · exact .inr (.inr rfl)

/-- A board that leaves queue B is counted at its chute. -/
theorem Run.Balanced.decided (h : n.Balanced) {b : Board} {seq : Nat}
    (hb : n.queueB.find? (fun b => b.seq == seq) = some b) {d : Decision} (hd : d.chute = 1 ∨ d.chute = 2 ∨ d.chute = 3) :
    (n.decided b d).Balanced := h.of_eq rfl fun below => by
  have leaves := (decided_aloft hb d).length_eq
  simp only [Run.aloft, List.length_map, List.length_cons, List.length_append] at leaves
  have queueA : (n.decided b d).queueA = n.queueA := rfl
  have lost : (n.decided b d).counters.lost = n.counters.lost := rfl
  have counters : (n.decided b d).counters = n.counters.decided d.chute (sentUnmetered n b) := rfl
  rw [queueA] at leaves
  simp only [Run.accounted] at below ⊢
  rw [queueA, lost, counters]
  rcases hd with chute | chute | chute <;> simp [RunCounters.decided, chute, satInc, max32] <;> omega

theorem dispatch_boardsOk {b : Board} {d : Decision} (h : (n.decided b d).Balanced) : BoardsOk (s.dispatch n b d) := by
  unfold State.dispatch
  dsimp only
  split
  · exact boardsOk_of_none rfl
  · exact boardsOk_of_run rfl h

theorem boardGradeAct_boardsOk (lbsy : Bool) : (boardGradeAct lbsy).Keeps BoardsOk := fun _ _ s _ h =>
  .bind fun g => .bind' fun n hn => .bind fun _ => .bind' fun b hb =>
    .pure (dispatch_boardsOk ((h.balanced (orRefuse_ok hn)).decided (orRefuse_ok hb) (sortBoard_chute s lbsy n b g)))

/-! ## The run requests (R121 to R126, R139) -/

theorem openRunAct_boardsOk : openRunAct.Keeps BoardsOk := fun _ _ s _ _ =>
  .bind fun _ => .bind fun q => .bind fun _ => .bind fun c => .bind fun _ =>
    .pure (boardsOk_of_run (n := s.openedRun c q) rfl fun _ => rfl)

theorem addSourceAct_boardsOk : addSourceAct.Keeps BoardsOk := fun _ _ _ _ h =>
  .bind fun _ => .bind fun _ => .bind' fun _ hn => .bind fun _ => .bind fun _ => .bind fun _ => .bind fun _ =>
    .pure (boardsOk_of_run rfl ((h.balanced (runOpen_eq (orRefuse_ok hn)).1).of_eq rfl fun _ => rfl))

theorem advanceSourceAct_boardsOk : advanceSourceAct.Keeps BoardsOk := fun _ _ _ _ h => by
  refine .bind fun _ => .bind' fun n hn => ?_
  split
  · exact .pure (boardsOk_of_run rfl ((h.balanced (runOpen_eq (orRefuse_ok hn)).1).of_eq rfl fun _ => rfl))
  · exact .error _

theorem closeRunAct_boardsOk : closeRunAct.Keeps BoardsOk := fun _ _ s _ h =>
  .bind fun _ => .bind' fun n hn => .ite (.pure (boardsOk_of_none rfl)) (.pure (by
    have draining : ({ n with state := .draining, sources := [] } : Run).Balanced :=
      (h.balanced (runOpen_eq (orRefuse_ok hn)).1).of_eq rfl fun _ => rfl
    exact boardsOk_of_run (congrArg Tracker.run (settleAll_tracker ..)) draining))

theorem abortRunAct_boardsOk : abortRunAct.Keeps BoardsOk := fun _ _ _ _ _ =>
  .bind fun _ => .bind fun _ => .pure (boardsOk_of_none rfl)

theorem runStatusAct_boardsOk : runStatusAct.Keeps BoardsOk := fun _ _ s _ h => by
  refine .bind fun _ => ?_
  split
  · refine .pure fun m hm => ?_
    obtain ⟨n, hn, rfl⟩ := Option.map_eq_some_iff.1 hm
    exact (h.balanced hn).of_eq rfl fun _ => rfl
  all_goals exact .pure h

/-! ## Every command -/

theorem exec_boardsOk {i : Instr} (hs : BoardsOk s) (h : exec i s = .next t) : BoardsOk t := by
  have take {x : Port × Byte} (ht : takenBy i = some x) (ha : (actOf i).Keeps BoardsOk) : BoardsOk t :=
    take_keeps (fun _ _ h => h) ht ha hs h
  have event {f : State → State} (hf : BoardsOk (f s)) (he : Machine.event f s = .next t) : BoardsOk t :=
    event_keeps hs (fun _ => hf) he
  cases hr : resetsPorts i with
  | true =>
    rcases exec_resets_tables hr h with ⟨eye, rfl⟩ | tables
    · exact boardsOk_of_none rfl
    · rcases tables.tracker with e | ⟨eye, e⟩
      · exact hs.of_run (congrArg Tracker.run e)
      · exact boardsOk_of_none (congrArg Tracker.run e)
  | false =>
    cases i with
    | openRun => exact take rfl openRunAct_boardsOk
    | addSource => exact take rfl addSourceAct_boardsOk
    | advanceSource => exact take rfl advanceSourceAct_boardsOk
    | closeRun => exact take rfl closeRunAct_boardsOk
    | abortRun => exact take rfl abortRunAct_boardsOk
    | boardGrade p lbsy => exact take rfl (boardGradeAct_boardsOk lbsy)
    | putSortEntry =>
      exact take rfl fun _ _ _ _ h => .bind fun _ => .bind fun _ => .bind fun _ => .pure (h.of_run rfl)
    | removeSortEntry =>
      exact take rfl fun _ _ _ _ h => .bind fun _ => .bind fun _ => .bind fun _ => .pure (h.of_run rfl)
    | clearSortMap => exact take rfl fun _ _ _ _ h => .bind fun _ => .pure (h.of_run rfl)
    | runStatus => exact take rfl runStatusAct_boardsOk
    | eyeEdge => exact event (eyeRises_boardsOk hs) h
    | eyeFilteredFall => exact event (f := fun s => s.withTracker { s.tracker with eye := false }) (hs.of_run rfl) h
    | meterFrame b e =>
      refine event (f := fun s => s.fifthByte ⟨b, e⟩) ?_ h
      unfold State.fifthByte
      split
      · exact frameArrives_boardsOk hs _
      · exact hs
    | meterByteReceived b e =>
      exact event (f := fun s => s.withTracker { s.tracker with receiver := receiveByte s.tracker.receiver ⟨b, e⟩ })
        (hs.of_run rfl) h
    | meterIdleTimeout =>
      refine event (f := State.meterIdle) ?_ h
      unfold State.meterIdle
      split
      · exact hs
      · exact frameArrives_boardsOk hs none
    | restart | coldStart | warmStart => cases hr
    | _ => exact hs.of_run (congrArg Tracker.run (exec_blocks h .tracker rfl))

end

end Sys2Proof.Machine

open Sys2Proof Sys2Proof.Machine in
/-- Settles O60: each of the three invariants is kept by every command, and none looks at the queue of commands. -/
theorem everyStepKeepsBoardsLabelsAndTrace : Obligations.EveryStepKeepsBoardsLabelsAndTrace :=
  ⟨stepKeeps_of_exec (fun _ _ h => h) exec_boardsOk,
    stepKeeps_of_exec (fun s _ h => (labelOk_iff _).2 ((labelOk_iff s).1 h)) exec_labelOk,
    stepKeeps_of_exec (fun s _ h => (traceOk_iff _).2 ((traceOk_iff s).1 h)) exec_traceOk⟩

end

section
/-! SUPPORT. The sort map requests at their takes (R137, R138). -/

namespace Sys2Proof.Machine

section

variable {s : State} {p : Port} {r : Request}

theorem putSortEntryAct_eq {e : SortEntry} (ho : Owns s p .planer) (hb : readSortEntry r.body = .ok e) :
    putSortEntryAct p r s =
      (require ((s.tracker.binOf e.grade e.width e.band).isSome || decide (s.tracker.sortMap.length < 48)) .tableFull >>=
        fun _ => .ok (s.withTracker { s.tracker with sortMap := keyPut SortEntry.key e s.tracker.sortMap },
          [.num 1 e.grade, .num 2 e.width, .num 1 e.band, .num 1 e.bin,
            .num 1 ((s.tracker.binOf e.grade e.width e.band).getD 0)])) := by
  rw [putSortEntryAct, claimCheck_owns ho, hb]; rfl

theorem removeSortEntryAct_eq {g w b : Nat} (ho : Owns s p .planer) (hb : readSortKeyOnly r.body = .ok (g, w, b)) :
    removeSortEntryAct p r s = (orRefuse (s.tracker.binOf g w b) .noSuch >>= fun bin =>
      .ok (s.withTracker { s.tracker with
          sortMap := s.tracker.sortMap.filter fun e => !(e.grade == g && e.width == w && e.band == b) },
        [.num 1 g, .num 2 w, .num 1 b, .num 1 bin])) := by
  rw [removeSortEntryAct, claimCheck_owns ho, hb]; rfl

theorem clearSortMapAct_eq (ho : Owns s p .planer) : clearSortMapAct p r s =
    .ok (s.withTracker { s.tracker with sortMap := [] }, [.num 1 s.tracker.sortMap.length]) := by
  rw [clearSortMapAct, claimCheck_owns ho]; rfl

end

end Sys2Proof.Machine

open Sys2Proof Sys2Proof.Machine in
/-- Settles O43: the entry of the key, or a free place; then the removal of one entry and of all. -/
theorem sortMapRequestsComplete : Obligations.SortMapRequestsComplete := by
  unfold Obligations.SortMapRequestsComplete
  intro p r s ho withMap
  refine ⟨fun e hr hb => ?put, fun g w b hr hb => ?remove, fun hr => exec_take_done rfl hr (clearSortMapAct_eq (r := r) ho)⟩
  case put =>
    have act := putSortEntryAct_eq ho hb
    intro answer
    refine ⟨fun bin old => ?replaced, fun new room => ?added, fun new full => ?full⟩
    case replaced => exact exec_take_done rfl hr (act.trans (by rw [old]; rfl))
    case added => exact exec_take_done rfl hr (act.trans (by rw [new, decide_eq_true room]; rfl))
    case full => exact exec_take_refused rfl hr (act.trans (by rw [new, decide_eq_false (Nat.not_lt.2 full)]; rfl))
  case remove =>
    have act := removeSortEntryAct_eq ho hb
    exact ⟨fun bin found => exec_take_done rfl hr (act.trans (by rw [found]; rfl)),
      fun absent => exec_take_refused rfl hr (act.trans (by rw [absent]; rfl))⟩

end

section
/-! SUPPORT. Eye edges (R120, R127, R128): the place an arriving board finds in queue A, by the room in both queues. -/

namespace Sys2Proof.Machine

section

variable {s : State} {n : Run} {b o : Board} {later more : List Board}

/-! ## The level of the eye -/

theorem exec_eyeEdge (running : s.retention.phase = .running) : exec .eyeEdge s = .next s.eyeRises :=
  event_running (f := State.eyeRises) s running

theorem eyeRises_high (h : s.tracker.eye = true) : s.eyeRises = s := if_pos h

theorem runOpen_none_iff : s.runOpen = none ↔ s.tracker.run = none ∨ ∃ n, s.tracker.run = some n ∧ n.state = .draining := by
  have draining (st : RunState) : ¬st = .isOpen ↔ st = .draining := by cases st <;> decide
  unfold State.runOpen
  cases s.tracker.run with
  | none => simp
  | some n => simp [Option.filter_some, draining]

theorem runOpen_some (hr : s.tracker.run = some n) (hs : n.state = .isOpen) : s.runOpen = some n := by
  simp [State.runOpen, hr, hs]

theorem eyeRises_stray (low : s.tracker.eye = false) (h : s.runOpen = none) :
    s.eyeRises = (s.withTracker { s.tracker with eye := true }).strayBoard := by
  have still : (s.withTracker { s.tracker with eye := true }).runOpen = none := h
  simp only [State.eyeRises, low, still]
  rfl

theorem eyeRises_board (low : s.tracker.eye = false) (hr : s.tracker.run = some n) (hs : n.state = .isOpen) :
    s.eyeRises = (s.withTracker { s.tracker with eye := true }).boardArrives n := by
  have still : (s.withTracker { s.tracker with eye := true }).runOpen = some n := runOpen_some hr hs
  simp only [State.eyeRises, low, still]
  rfl

/-! ## Room in queue A -/

theorem roomInA_room (room : n.queueA.length < 16) : s.roomInA n = (s, n) := if_neg (Nat.not_le.2 room)

/-- The run after the oldest board of a full queue A has moved to queue B without a reading (R127). -/
def Run.afterOverrun (n : Run) (b : Board) (later : List Board) : Run :=
  { n with queueA := later, queueB := n.queueB ++ [b.unread], aOverrun := true }

theorem roomInA_full (full : 16 ≤ n.queueA.length) (ha : n.queueA = b :: later) (room : n.queueB.length < 48) :
    s.roomInA n = ((s.withRun (some (n.afterOverrun b later))).raiseAll .trackOverrun, n.afterOverrun b later) := by
  refine (if_pos full).trans ?_
  simp only [State.overrunA, ha, roomInB_room room]
  rfl

/-- With both queues full the oldest board of queue B is lost first (R120). -/
theorem roomInA_both_full (fullA : 16 ≤ n.queueA.length) (fullB : n.queueB.length = 48) (hb : n.queueB = o :: more) :
    s.roomInA n = (s.loses n o more).roomInA (n.afterLoss more) := by
  have waiting : n.queueA ≠ [] := fun empty => by rw [empty] at fullA; cases fullA
  obtain ⟨b, later, ha⟩ := List.exists_cons_of_ne_nil waiting
  have room : (n.afterLoss more).queueB.length < 48 := by
    rw [hb, List.length_cons] at fullB
    exact Nat.lt_of_succ_le fullB.le
  rw [roomInA_full (s := s.loses n o more) (n := n.afterLoss more) fullA ha room]
  refine (if_pos fullA).trans ?_
  simp only [State.overrunA, ha, roomInB_full hb fullB]
  rfl

/-- A board of the head source stands at the end of queue A, and its charge has one more in flight (R127). -/
theorem boardArrives_room {t : State} {m : Run} {head : Nat} {rest : List Nat} (place : s.roomInA n = (t, m))
    (hs : m.sources = head :: rest) :
    s.boardArrives n = (t.withRun (some (m.append head))).modifyCharge head Charge.fly := by
  rw [boardArrives_eq, place]
  simp only [hs, List.headD_cons]

end

end Sys2Proof.Machine

open Sys2Proof Sys2Proof.Machine in
/-- Settles O44: the level, then the run, then the room in the queues. -/
theorem eyeEdgesTrackOrStray : Obligations.EyeEdgesTrackOrStray := by
  unfold Obligations.EyeEdgesTrackOrStray
  intro s running
  have edge := exec_eyeEdge running
  refine ⟨event_running (f := fun s => s.withTracker { s.tracker with eye := false }) s running,
    fun high => edge.trans (by rw [eyeRises_high high]),
    fun low idle => edge.trans (by rw [eyeRises_stray low (runOpen_none_iff.2 idle)]; rfl),
    fun n head rest low hr hs sources => ?board⟩
  case board =>
    rw [eyeRises_board low hr hs] at edge
    intro board charges m
    refine ⟨fun room => ?room, fun b later full ha room => ?full, fun o more fullA fullB hb => ?lost⟩
    case room =>
      rw [edge, boardArrives_room (roomInA_room room) sources]
      rfl
    case full =>
      rw [edge, boardArrives_room (roomInA_full full ha room) sources]
      rfl
    case lost =>
      have after := (exec_eyeEdge (s := s.loses n o more) running).trans
        (congrArg _ (eyeRises_board (n := n.afterLoss more) low rfl hs))
      rw [edge, after, boardArrives_eq, boardArrives_eq, roomInA_both_full fullA fullB hb]
      rfl

end

section
/-! SUPPORT. BOARD GRADE at its take (R133 to R135, R125): the checks, the sort decision, and what the board leaves behind. -/

namespace Sys2Proof.Machine

section

variable {s t : State} {p : Port} {r : Request} {lbsy : Bool} {g : GradeReport} {n : Run} {b : Board} {d : Decision}

/-! ## The counters (R134, R135) -/

section

variable (c : RunCounters) (q : Prop) [Decidable q]

theorem decided_bin : c.decided 1 (decide q) = { c with
    packed := min 4294967295 (c.packed + 1)
    unmetered := if q then min 4294967295 (c.unmetered + 1) else c.unmetered } := by
  simp [RunCounters.decided, satInc, max32]

theorem decided_redry : c.decided 2 (decide q) = { c with
    redry := min 4294967295 (c.redry + 1)
    unmetered := if q then min 4294967295 (c.unmetered + 1) else c.unmetered } := by
  simp [RunCounters.decided, satInc, max32]

theorem decided_reject : c.decided 3 (decide q) = { c with
    rejected := min 4294967295 (c.rejected + 1)
    unmetered := if q then min 4294967295 (c.unmetered + 1) else c.unmetered } := by
  simp [RunCounters.decided, satInc, max32]

end

theorem sentUnmetered_eq (n : Run) (b : Board) :
    sentUnmetered n b = decide (b.cls = some .noReading ∧ n.policy = .accept) := by
  rw [Bool.eq_iff_iff]
  simp [sentUnmetered]

/-! ## The board leaves (R120, R125) -/

/-- The charge of a board that leaves has one board less in flight, and is PLANED when it is unlisted with none. -/
theorem land_settle_eq (c : Charge) (l : List Nat) (id : Nat) : c.land.settle (l.contains id) =
    if c.land.state = .planing ∧ c.land.stats.inFlight = 0 ∧ id ∉ l then { c.land with state := .planed } else c.land :=
  if_congr (by simp) rfl rfl

theorem drained_iff : n.drained = true ↔ n.state = .draining ∧ n.queueA = [] ∧ n.queueB = [] := by
  simp [Run.drained, and_assoc]

theorem dispatch_eq_leaves (s : State) (n : Run) (b : Board) (d : Decision) : s.dispatch n b d = s.leaves n b
    (n.counters.decided d.chute (decide (b.cls = some .noReading ∧ n.policy = .accept))) := by
  have left : (s.withRun (some (n.decided b d))).boardLeft b.charge =
      (s.withRun (some (n.decided b d))).modifyCharge b.charge fun c => c.land.settle (n.sources.contains b.charge) :=
    boardLeft_eq ..
  have ends := drained_iff (n := n.decided b d)
  rw [← sentUnmetered_eq]
  simp only [State.dispatch, State.leaves, left, land_settle_eq]
  exact if_congr ends rfl rfl

/-! ## The checks (R133) -/

theorem boardGradeAct_eq (hb : readGradeReport r.body = .ok g) : boardGradeAct lbsy p r s =
    (orRefuse s.tracker.run .badState >>= fun n => require (!n.queueA.any fun b => b.seq == g.seq) .notMetered >>= fun _ =>
      orRefuse (n.queueB.find? fun b => b.seq == g.seq) .unknownBoard >>= fun b =>
      .ok ((s.sortBoard lbsy n b g).1.dispatch n b (s.sortBoard lbsy n b g).2,
        gradeFields b (s.sortBoard lbsy n b g).2 (n.decided b (s.sortBoard lbsy n b g).2).drained)) := by
  rw [boardGradeAct, hb]; rfl

theorem queueA_lacks (ha : ∀ a ∈ n.queueA, a.seq ≠ g.seq) : (!n.queueA.any fun b => b.seq == g.seq) = true := by
  simpa using ha

/-- A board of queue B that is decided by `d` with the state `t`: it leaves there, and the answer shows the decision. -/
theorem exec_boardGrade_decided (hr : Offers s p 0x45 r) (hb : readGradeReport r.body = .ok g) (hn : s.tracker.run = some n)
    (ha : ∀ a ∈ n.queueA, a.seq ≠ g.seq) (hq : n.queueB.find? (fun x => x.seq == g.seq) = some b)
    (hs : s.sortBoard lbsy n b g = (t, d)) : exec (.boardGrade p lbsy) s = .next ((t.leaves n b
      (n.counters.decided d.chute (decide (b.cls = some .noReading ∧ n.policy = .accept)))).done p r (gradeFields b d
        (decide (n.state = .draining ∧ n.queueA = [] ∧ n.queueB.eraseP (fun x => x.seq == b.seq) = [])))) := by
  have ends : (n.decided b d).drained =
      decide (n.state = .draining ∧ n.queueA = [] ∧ n.queueB.eraseP (fun x => x.seq == b.seq) = []) := by
    rw [Bool.eq_iff_iff, drained_iff, decide_eq_true_eq]
    rfl
  rw [← dispatch_eq_leaves, ← ends]
  refine exec_take_done rfl hr ((boardGradeAct_eq (p := p) hb).trans ?_)
  simp only [hn, orRefuse, ok_bind, hq, queueA_lacks ha, hs]
  rfl

/-! ## The sort decision (R134) -/

theorem redryReason_some (h : b.cls = some .wet ∨ (b.cls = some .noReading ∧ n.policy = .redry)) :
    ∃ reason, redryReason b.cls n.policy = some reason ∧ reason.code = if b.cls = some .wet then 1 else 2 := by
  rcases h with wet | ⟨unread, policy⟩
  · exact ⟨.wet, by rw [wet]; rfl, by rw [if_pos wet]; rfl⟩
  · exact ⟨.noReading, by rw [unread, policy]; rfl, by rw [unread]; rfl⟩

theorem redryReason_none (wet : b.cls ≠ some .wet) (unread : ¬(b.cls = some .noReading ∧ n.policy = .redry)) :
    redryReason b.cls n.policy = none := by
  unfold redryReason
  split
  · exact absurd ‹_› wet
  · exact absurd ⟨‹_›, ‹_›⟩ unread
  · rfl

theorem volumeOf_eq (s : State) (n : Run) (b : Board) (g : GradeReport) : s.volumeOf n b g =
    boardVolume (match s.charge b.charge with | some c => c.thickness | none => n.thickness) g.width g.length := by
  unfold State.volumeOf
  cases s.charge b.charge <;> rfl

section

variable {v : Nat} (hv : s.volumeOf n b g = v)
include hv

section

variable {reason : SortReason} (hw : redryReason b.cls n.policy = some reason)
include hw

theorem sortBoard_lot {lot : Nat}
    (h : s.handToLot n.species n.thickness b.charge v = (t, some lot)) : s.sortBoard lbsy n b g =
      (t, { chute := 2, bin := 0, reason := reason, id := lot, band := 0, volume := v }) := by
  simp only [State.sortBoard, hw, hv, h]

theorem sortBoard_lot_full (h : s.handToLot n.species n.thickness b.charge v = (t, none)) :
    s.sortBoard lbsy n b g = (t, rejected .redryFull 0) := by
  simp only [State.sortBoard, hw, hv, h]

end

/-- A mapped board is handed to its bin, which takes it or is blocked. -/
theorem sortBoard_mapped (hw : redryReason b.cls n.policy = none) {bin : Nat} {cls : BoardClass} {taken : Option Nat}
    (h : g.grade ≠ 0)
    (mapped : s.tracker.binOf g.grade g.width (bandOf s.library.bands g.length) = some bin) (hc : b.cls = some cls)
    (handed : s.handToBin lbsy bin ⟨b.charge,
      ⟨n.species, n.thickness, g.width, g.grade, bandOf s.library.bands g.length⟩, v, b.reading, cls⟩ = (t, taken)) :
    s.sortBoard lbsy n b g = (t, match taken with
      | some id => { chute := 1, bin := bin, reason := .sorted, id := id, band := bandOf s.library.bands g.length, volume := v }
      | none => rejected .binBlocked (bandOf s.library.bands g.length)) := by
  rw [State.sortBoard, hw]
  simp only [if_neg h, State.sortToBin, mapped, hv, hc, Option.getD_some, handed]
  cases taken <;> rfl

end

section

variable (hw : redryReason b.cls n.policy = none)
include hw

theorem sortBoard_gradeZero (h : g.grade = 0) : s.sortBoard lbsy n b g = (s, rejected .gradeZero 0) := by
  simp only [State.sortBoard, hw, h, if_true]

theorem sortBoard_unmapped (h : g.grade ≠ 0)
    (unmapped : s.tracker.binOf g.grade g.width (bandOf s.library.bands g.length) = none) :
    s.sortBoard lbsy n b g = (s, rejected .unmapped (bandOf s.library.bands g.length)) := by
  simp only [State.sortBoard, hw, if_neg h, State.sortToBin, unmapped]

end

end

end Sys2Proof.Machine

open Sys2Proof Sys2Proof.Machine in
/-- Settles O47: the three checks, then the decision by class, grade, sort map and hand-off. -/
theorem boardGradeDecidesTheBoard : Obligations.BoardGradeDecidesTheBoard := by
  unfold Obligations.BoardGradeDecidesTheBoard
  intro p r lbsy g s hr hb
  have act := boardGradeAct_eq (lbsy := lbsy) (p := p) (s := s) hb
  refine ⟨fun idle => exec_take_refused rfl hr (act.trans (by rw [idle]; rfl)), fun n hn =>
    ⟨fun ⟨x, hx, seq⟩ => ?notMetered, fun ha hB => ?unknown, fun b ha hq => ?board⟩⟩
  case notMetered =>
    have waiting : (n.queueA.any fun b => b.seq == g.seq) = true := List.any_eq_true.2 ⟨x, hx, beq_iff_eq.2 seq⟩
    refine exec_take_refused rfl hr (act.trans ?_)
    simp only [hn, orRefuse, ok_bind, waiting]
    rfl
  case unknown =>
    have absent : n.queueB.find? (fun b => b.seq == g.seq) = none := by simpa using hB
    refine exec_take_refused rfl hr (act.trans ?_)
    simp only [hn, orRefuse, ok_bind, queueA_lacks ha, absent]
    rfl
  case board =>
    have decided {t : State} {d : Decision} := exec_boardGrade_decided (t := t) (d := d) hr hb hn ha hq (lbsy := lbsy)
    intro ends unmetered packed redry reject body volume why band
    have hv : s.volumeOf n b g = volume := volumeOf_eq s n b g
    refine ⟨fun wet => ?redry, fun wet unread => ?bin⟩
    case redry =>
      obtain ⟨reason, hw, code⟩ := redryReason_some wet
      refine ⟨fun t lot h => ?_, fun t h => ?_⟩
      · rw [decided (sortBoard_lot hv hw h), decided_redry, gradeFields, code]
      · rw [decided (sortBoard_lot_full hv hw h), rejected, decided_reject]
        rfl
    case bin =>
      have hw := redryReason_none wet unread
      refine ⟨fun h => ?_, fun h unmapped => ?_, fun bin cls h mapped hc => ?_⟩
      · rw [decided (sortBoard_gradeZero hw h), rejected, decided_reject]
        rfl
      · rw [decided (sortBoard_unmapped hw h unmapped), rejected, decided_reject]
        rfl
      · refine ⟨fun t id took => ?_, fun t full => ?_⟩
        · rw [decided (sortBoard_mapped hv hw h mapped hc took), decided_bin]
          rfl
        · rw [decided (sortBoard_mapped hv hw h mapped hc full), rejected, decided_reject]
          rfl

end

section
/-! SUPPORT. The run requests at their takes (R118, R121 to R124, R126), and a change made of every charge of a list. -/

namespace Sys2Proof.Machine

/-! ## A change of every charge of a list (R124, R126) -/

section

variable {f : Charge → Charge}

/-- Changing the charges of a list one after another changes each of them once, where a second time changes nothing. -/
theorem modifyAll_eq (hid : ∀ c, (f c).id = c.id) (twice : ∀ c, f (f c) = f c) : ∀ (l : List Nat) (s : State),
    l.foldl (fun t id => t.modifyCharge id f) s =
      s.withCharges { s.charges with entries := s.charges.entries.map fun c => if c.id ∈ l then f c else c }
  | [], s => by simp; rfl
  | id :: l, s => by
    have once (c : Charge) : (if (if c.id = id then f c else c).id ∈ l then f (if c.id = id then f c else c)
        else if c.id = id then f c else c) = if c.id ∈ id :: l then f c else c := by
      by_cases first : c.id = id <;> by_cases later : c.id ∈ l <;> simp_all
    rw [List.foldl_cons, modifyAll_eq hid twice l]
    simp only [State.modifyCharge, keyModify, State.withCharges_charges, List.map_map, Function.comp_def, once]
    rfl

end

theorem planeAll_eq (s : State) (l : List Nat) : s.planeAll l = s.withCharges { s.charges with
    entries := s.charges.entries.map fun c =>
      if c.id ∈ l ∧ c.state = .planing then { c with state := .planed } else c } := by
  have keeps (c : Charge) : c.planed.id = c.id := by unfold Charge.planed; split <;> rfl
  have twice (c : Charge) : c.planed.planed = c.planed := by
    by_cases h : c.state = .planing <;> simp [Charge.planed, h]
  refine (modifyAll_eq keeps twice l s).trans ?_
  simp only [Charge.planed, ite_and]

theorem unplaneAll_eq (s : State) (l : List Nat) : l.foldl (fun t id => t.modifyCharge id Charge.unplane) s =
    s.withCharges { s.charges with entries := s.charges.entries.map fun c =>
      if c.id ∈ l ∧ c.state = .planing then
        { c with state := .released, stats := { c.stats with inFlight := 0 } } else c } := by
  have keeps (c : Charge) : c.unplane.id = c.id := by unfold Charge.unplane; split <;> rfl
  have twice (c : Charge) : c.unplane.unplane = c.unplane := by
    by_cases h : c.state = .planing <;> simp [Charge.unplane, h]
  refine (modifyAll_eq keeps twice l s).trans ?_
  simp only [Charge.unplane, ite_and]

theorem settle_unlisted (c : Charge) : c.settle false =
    if c.state = .planing ∧ c.stats.inFlight = 0 then { c with state := .planed } else c :=
  if_congr (by simp) rfl rfl

theorem settle_id (b : Bool) (c : Charge) : (c.settle b).id = c.id := by
  unfold Charge.settle
  split <;> rfl

/-- Charges that settle while the run lists none. -/
theorem settleAll_eq (l : List Nat) {s : State} (h : s.sources = []) : s.settleAll l =
    s.withCharges { s.charges with entries := s.charges.entries.map fun c =>
      if c.id ∈ l ∧ c.state = .planing ∧ c.stats.inFlight = 0 then { c with state := .planed } else c } := by
  have unlisted : ∀ (l : List Nat) {s : State}, s.sources = [] →
      s.settleAll l = l.foldl (fun t id => t.modifyCharge id (Charge.settle false)) s := by
    intro l
    induction l with
    | nil => exact fun _ => rfl
    | cons id l ih =>
      intro s h
      have settled : s.settle id = s.modifyCharge id (Charge.settle false) := by
        rw [State.settle, isListed_eq, h]
        rfl
      rw [State.settleAll, List.foldl_cons, List.foldl_cons, settled]
      exact ih (s := s.modifyCharge id (Charge.settle false)) h
  have twice (c : Charge) : (c.settle false).settle false = c.settle false := by
    by_cases h : c.state = .planing ∧ c.stats.inFlight = 0 <;> simp [settle_unlisted, h]
  refine ((unlisted l h).trans (modifyAll_eq (settle_id false) twice l s)).trans ?_
  simp only [settle_unlisted, ite_and]

section

variable {s : State} {p : Port} {r : Request} {n : Run} {c : Charge} {id : Nat}

theorem mem_charges_iff : id ∈ n.charges ↔
    id ∈ n.sources ∨ (∃ b ∈ n.queueA, b.charge = id) ∨ ∃ b ∈ n.queueB, b.charge = id := by
  simp [Run.charges]

/-! ## The acts behind their claim check -/

theorem runOpen_none (h : ∀ n, s.tracker.run = some n → n.state = .draining) : s.runOpen = none := by
  rw [runOpen_none_iff]
  cases hr : s.tracker.run with
  | none => exact .inl rfl
  | some n => exact .inr ⟨n, rfl, h n hr⟩

theorem openRunAct_eq {q : OpenRunFields} (ho : Owns s p .planer) (hb : readOpenRun r.body = .ok q) :
    openRunAct p r s = (require s.tracker.run.isNone .badState >>= fun _ => orRefuse (s.charge q.charge) .noSuch >>= fun c =>
      require (c.state == .released) .badState >>= fun _ =>
      .ok ((s.withTracker { s.tracker with
          run := some (s.openedRun c q), lastRun := (s.openedRun c q).number }).modifyCharge c.id Charge.plane,
        [.num 1 (s.openedRun c q).number, .num 1 c.species, .num 1 c.thickness, .num 1 (s.openedRun c q).wetBand,
          .num 1 (s.openedRun c q).dryBand, .num 1 (s.openedRun c q).policy.code])) := by
  rw [openRunAct, claimCheck_owns ho, hb]; rfl

theorem addSourceAct_eq (ho : Owns s p .planer) (hb : readOne 2 1 65535 r.body = .ok id) :
    addSourceAct p r s = (orRefuse s.runOpen .badState >>= fun n =>
      require (decide (n.sources.length < 3)) .tableFull >>= fun _ => orRefuse (s.charge id) .noSuch >>= fun c =>
      require (c.state == .released) .badState >>= fun _ =>
      require (c.species == n.species && c.thickness == n.thickness) .mismatch >>= fun _ =>
      .ok ((s.withRun (some { n with sources := n.sources ++ [id] })).modifyCharge id fun c =>
          { c.plane with stats := { c.stats with inFlight := 0 } }, idList (n.sources ++ [id]))) := by
  rw [addSourceAct, claimCheck_owns ho, hb]; rfl

theorem closeRunAct_eq (ho : Owns s p .planer) : closeRunAct p r s = (orRefuse s.runOpen .badState >>= fun n =>
    if n.queueA.isEmpty && n.queueB.isEmpty then
      .ok ((s.planeAll n.sources).endRun n .closed,
        [.num 1 n.number, .sym (.ended .closed)] ++ n.counters.fields ++ [.flag true])
    else
      .ok ((s.withRun (some { n with state := .draining, sources := [] })).settleAll n.sources,
        .num 1 n.number :: n.counters.fields ++ [.flag false])) := by
  rw [closeRunAct, claimCheck_owns ho]; rfl

theorem abortRunAct_eq (ho : Owns s p .planer) : abortRunAct p r s = (orRefuse s.tracker.run .badState >>= fun n =>
    .ok ((n.charges.foldl (fun t id => t.modifyCharge id Charge.unplane) s).endRun { n with counters := n.abortCounters }
        .aborted,
      [.num 1 n.number, .sym (.ended .aborted)] ++ n.abortCounters.fields)) := by
  rw [abortRunAct, claimCheck_owns ho]; rfl

/-! ## ADVANCE SOURCE (R123) -/

theorem advanceSourceAct_refused (ho : Owns s p .planer)
    (h : s.runOpen = none ∨ ∃ n, s.runOpen = some n ∧ n.sources.length < 2) : advanceSourceAct p r s = .error .badState := by
  rcases h with idle | ⟨n, hn, few⟩
  · rw [advanceSourceAct, claimCheck_owns ho, idle]; rfl
  · rw [advanceSourceAct, claimCheck_owns ho, hn]
    match hs : n.sources with
    | [] | [_] => simp only [orRefuse, ok_bind, hs]
    | _ :: _ :: _ => rw [hs] at few; simp at few

theorem advanceSourceAct_eq (ho : Owns s p .planer) (hn : s.runOpen = some n) {old head : Nat} {rest : List Nat}
    (hs : n.sources = old :: head :: rest) : advanceSourceAct p r s =
      let t := (s.withRun (some { n with sources := head :: rest })).settle old
      .ok (t, [.num 2 old, optField 1 (fun c => .sym (.state (Charge.state c).name)) (t.charge old),
        optNum 1 ((t.charge old).map fun c => c.stats.inFlight), .num 2 head]) := by
  rw [advanceSourceAct, claimCheck_owns ho, hn]
  simp only [orRefuse, ok_bind, hs]
  rfl

/-- The source that is passed over settles, and no other charge changes. -/
theorem settle_charge {m : Run} (unlisted : id ∉ m.sources) (hc : s.charge id = some c) :
    ((s.withRun (some m)).settle id).charge id = some (c.settle false) ∧
    ∀ other, other ≠ id → ((s.withRun (some m)).settle id).charge other = s.charge other := by
  have listed : (s.withRun (some m)).isListed id = false := by
    rw [isListed_eq, sources_of_run (n := m) rfl]
    simpa using unlisted
  rw [State.settle, listed]
  exact ⟨(keyFind_keyModify (settle_id false) id _).trans (congrArg (Option.map _) hc),
    fun other ne => keyFind_keyModify_ne (settle_id false) ne _⟩

end

end Sys2Proof.Machine

open Sys2Proof Sys2Proof.Machine in
/-- Settles O42: the refusals of the five requests, then what each of them completes. -/
theorem runRequestsComplete : Obligations.RunRequestsComplete := by
  unfold Obligations.RunRequestsComplete
  intro p r s ho noneOpen
  refine ⟨fun q hr hb => ?openRefused, fun id hr hb => ?addRefused, fun hr few => ?advanceRefused,
    fun hr idle => ?closeRefused, fun hr absent => ?abortRefused, fun q c hr hb absent hc hs => ?opens,
    fun id c n hr hb hn isOpen room hc hs species thickness => ?adds,
    fun n old head rest c hr hn isOpen sources unlisted hc => ?advances, fun n hr hn isOpen => ?closes,
    fun n hr hn => ?aborts⟩
  case openRefused =>
    have act := openRunAct_eq ho hb
    refine ⟨fun present => ?_, fun absent hc => ?_, fun c absent hc hs => ?_⟩
    · obtain ⟨n, hn⟩ := Option.ne_none_iff_exists'.1 present
      exact exec_take_refused rfl hr (act.trans (by rw [hn]; rfl))
    · exact exec_take_refused rfl hr (act.trans (by rw [absent, hc]; rfl))
    · exact exec_take_refused rfl hr (act.trans (by rw [absent, hc]; simp [orRefuse, require, hs]))
  case opens =>
    have act := openRunAct_eq ho hb
    refine exec_take_done rfl hr (act.trans ?_)
    rw [absent, hc]
    simp only [orRefuse, require, hs, ok_bind, Option.isNone_none, if_true, beq_self_eq_true]
    rfl
  case addRefused =>
    have act := addSourceAct_eq ho hb
    intro refused
    refine ⟨fun idle => exec_take_refused rfl hr (act.trans (by rw [runOpen_none idle]; rfl)), fun n hn isOpen => ?_⟩
    rw [runOpen_some hn isOpen] at act
    refine ⟨fun full => ?_, fun room absent => ?_, fun c room hc hs => ?_, fun c room hc hs other => ?_⟩
    · exact exec_take_refused rfl hr (act.trans (by simp [orRefuse, require, Nat.not_lt.2 full]))
    · exact exec_take_refused rfl hr (act.trans (by simp [orRefuse, require, room, absent]))
    · exact exec_take_refused rfl hr (act.trans (by simp [orRefuse, require, room, hc, hs]))
    · have differs : ¬(c.species = n.species ∧ c.thickness = n.thickness) := fun same => other.elim (· same.1) (· same.2)
      exact exec_take_refused rfl hr (act.trans (by simp [orRefuse, require, room, hc, hs, differs]))
  case adds =>
    have act := addSourceAct_eq ho hb
    have length : (n.sources ++ [id]).length = n.sources.length + 1 := List.length_append
    refine exec_take_items (b := idList (n.sources ++ [id])) rfl hr (act.trans ?_) (by rw [idList, length])
    rw [runOpen_some hn isOpen]
    simp only [orRefuse, require, ok_bind, room, hc, hs, species, thickness, decide_true, if_true, beq_self_eq_true,
      Bool.and_self]
    rfl
  case advanceRefused =>
    refine exec_take_refused rfl hr (advanceSourceAct_refused (r := r) ho ?_)
    rcases few with idle | ⟨n, hn, isOpen, few⟩
    · exact .inl (runOpen_none idle)
    · exact .inr ⟨n, runOpen_some hn isOpen, few⟩
  case advances =>
    intro d
    obtain ⟨settled, others⟩ := settle_charge (m := { n with sources := head :: rest }) unlisted hc
    rw [settle_unlisted] at settled
    refine ⟨(s.withRun (some { n with sources := head :: rest })).settle old,
      exec_take_items rfl hr (advanceSourceAct_eq (r := r) ho (runOpen_some hn isOpen) sources) ?_, settled, others, rfl,
      keyModify_map fun c _ _ => settle_id _ c, rfl⟩
    rw [settled]
    rfl
  case closeRefused =>
    exact exec_take_refused rfl hr ((closeRunAct_eq (r := r) ho).trans (by rw [runOpen_none idle]; rfl))
  case closes =>
    have act := closeRunAct_eq (r := r) ho
    rw [runOpen_some hn isOpen] at act
    intro counts
    refine ⟨fun emptyA emptyB => ?_, fun waiting => ?_⟩
    · refine exec_take_done rfl hr (act.trans ?_)
      simp only [orRefuse, ok_bind, emptyA, emptyB, List.isEmpty_nil, Bool.and_self, if_true, planeAll_eq]
      rfl
    · have queued : ¬(n.queueA.isEmpty && n.queueB.isEmpty) = true := by
        rw [Bool.and_eq_true, List.isEmpty_iff, List.isEmpty_iff]
        exact fun empty => waiting.elim (· empty.1) (· empty.2)
      refine exec_take_done rfl hr (act.trans ?_)
      simp only [orRefuse, ok_bind, if_neg queued]
      rw [settleAll_eq n.sources rfl]
      rfl
  case abortRefused =>
    exact exec_take_refused rfl hr ((abortRunAct_eq (r := r) ho).trans (by rw [absent]; rfl))
  case aborts =>
    intro lost
    refine exec_take_done rfl hr ((abortRunAct_eq (r := r) ho).trans ?_)
    rw [hn]
    simp only [orRefuse, ok_bind, unplaneAll_eq, mem_charges_iff]
    rfl

end

section
/-! SUPPORT. The lot and pack requests at their takes, the references that a record's contributors lose, and the close of a pack
(R147, R148, R153, R160 to R162, R165). -/

namespace Sys2Proof.Machine

/-! ## References dropped with a record (R148, R165) -/

section

variable {f : Charge → Charge}

/-- Changing the charges of a list without repeats one after another changes each of them once. -/
theorem modifyEach_eq (hid : ∀ c, (f c).id = c.id) : ∀ (l : List Nat) (s : State), l.Nodup →
    l.foldl (fun t id => t.modifyCharge id f) s =
      s.withCharges { s.charges with entries := s.charges.entries.map fun c => if c.id ∈ l then f c else c }
  | [], s, _ => by simp; rfl
  | id :: l, s, h => by
    obtain ⟨unlisted, distinct⟩ := List.nodup_cons.1 h
    have once (c : Charge) : (if (if c.id = id then f c else c).id ∈ l then f (if c.id = id then f c else c)
        else if c.id = id then f c else c) = if c.id ∈ id :: l then f c else c := by
      by_cases first : c.id = id
      · simp [first, hid, unlisted]
      · simp [first]
    rw [List.foldl_cons, modifyEach_eq hid l _ distinct]
    simp only [State.modifyCharge, keyModify, State.withCharges_charges, List.map_map, Function.comp_def, once]
    rfl

end

/-- Every contributor charge of a record loses one reference, and nothing else changes. -/
theorem dropRefs_eq {cs : List Contributor} (distinct : (cs.map Contributor.charge).Nodup) (s : State) : s.dropRefs cs =
    s.withCharges { s.charges with
      entries := s.charges.entries.map fun c =>
        if c.id ∈ cs.map Contributor.charge then { c with refs := c.refs - 1 } else c } :=
  List.foldl_map.symm.trans (modifyEach_eq (f := fun c => { c with refs := c.refs - 1 }) (fun _ => rfl) _ s distinct)

/-- The flag of other pieces, in the model's form and in the statements'. -/
theorem bne_zero_eq (n : Nat) : (n != 0) = decide (n ≠ 0) := by
  rw [decide_not]; rfl

/-- The charge a lot is converted into, its origin list with the flag of other pieces (R68, R148). -/
theorem Lot.charge_eq (x : Lot) (id : Nat) : x.charge id =
    { newCharge id x.species x.thickness x.volume with
      flags := { ChargeFlags.clear with redry := true }
      origin := some ⟨x.contributors.map Contributor.charge, decide (x.other ≠ 0)⟩ } := by
  rw [← bne_zero_eq]; rfl

/-- The contributors and the flag of other pieces as an answer shows them: a count, the charge ids, the flag (R68, R148, R165). -/
theorem originItems_eq (cs : List Contributor) (other : Nat) :
    idList (cs.map Contributor.charge) ++ [.flag (other != 0)] =
      Field.num 1 cs.length :: (cs.map (fun c => Field.num 2 c.charge) ++ [Field.flag (decide (other ≠ 0))]) := by
  rw [idList, List.length_map, List.map_map, bne_zero_eq]
  rfl

section

variable {s : State} {p : Port} {r : Request} {lbsy : Bool} {n bin id : Nat} {tg : BinTarget} {cause : CloseCause}

/-! ## The acts behind their bodies -/

theorem closeLotAct_eq (hb : readOne 1 1 255 r.body = .ok n) :
    closeLotAct p r s = (orRefuse (s.lot n) .noSuch >>= fun x => require (x.state == .isOpen) .badState >>= fun _ =>
      .ok (s.withLots { s.lots with lots := keyModify Lot.number n (fun x => { x with state := .closed }) s.lots.lots },
        [.num 1 n, .num 1 x.species, .num 1 x.thickness, .num 2 x.pieces, .num 4 x.volume])) := by
  rw [closeLotAct, hb]; rfl

theorem convertLotAct_eq (hb : readOne 1 1 255 r.body = .ok n) :
    convertLotAct p r s = (orRefuse (s.lot n) .noSuch >>= fun x => require s.chargeEntryFree .tableFull >>= fun _ =>
      .ok (((s.addCharge (x.charge s.nextChargeId)).dropRefs x.contributors).withLots
          { s.lots with lots := keyErase Lot.number n s.lots.lots },
        [.num 1 n, .num 2 s.nextChargeId, .num 1 x.species, .num 1 x.thickness, .num 2 x.pieces, .num 4 x.volume] ++
          (idList (x.contributors.map Contributor.charge) ++ [.flag (x.other != 0)]))) := by
  rw [convertLotAct, hb]; rfl

theorem setBinTargetAct_eq (ho : Owns s p .planer) (hb : readBinTarget r.body = .ok (bin, tg)) :
    setBinTargetAct lbsy p r s = .ok (match s.meeting bin tg with
        | some q => (s.setTarget bin tg).closePack lbsy q.id .targetChange
        | none => s.setTarget bin tg,
      [.num 1 bin, .num 1 tg.kindCode, .num 4 tg.value, .num 1 (s.target bin).kindCode, .num 4 (s.target bin).value,
        .num 2 (((s.meeting bin tg).map Pack.id).getD 0)]) := by
  rw [setBinTargetAct, claimCheck_owns ho, hb]; rfl

theorem closePackAct_eq (hb : readOne 1 1 20 r.body = .ok bin) :
    closePackAct lbsy p r s = (orRefuse (s.openPack bin) .badState >>= fun q =>
      .ok (s.closePack lbsy q.id .command, [.num 1 bin, .num 2 q.id, .num 2 q.pieces, .num 4 q.volume,
        .sym (.pack ((((s.closePack lbsy q.id .command).pack q.id).map Pack.state).getD .closed))])) := by
  rw [closePackAct, hb]; rfl

theorem releasePackAct_eq (hb : readOne 2 1 65535 r.body = .ok id) :
    releasePackAct p r s = (orRefuse (s.pack id) .noSuch >>= fun q => require (q.state == .labelled) .badState >>= fun _ =>
      require (!s.label.reprints id) .inUse >>= fun _ =>
      .ok ((s.dropRefs q.contributors).withPacks { s.packs with packs := keyErase Pack.id id s.packs.packs, blocked := false },
        [.num 2 id, .num 1 q.bin] ++ q.key.fields ++ [.num 2 q.pieces, .num 4 q.volume, optNum 4 q.serial, .num 1 q.reprints] ++
          (idList (q.contributors.map Contributor.charge) ++ [.flag (q.other != 0)]))) := by
  rw [releasePackAct, hb]; rfl

/-! ## What the acts look for -/

theorem meeting_some {q : Pack} (h : s.openPack bin = some q) (met : tg.met q = true) : s.meeting bin tg = some q := by
  rw [State.meeting, h, Option.filter_some_pos met]

theorem meeting_none (h : ∀ q, s.openPack bin = some q → tg.met q = false) : s.meeting bin tg = none := by
  rw [State.meeting, Option.filter_eq_none_iff]
  exact fun q hq met => absurd ((h q hq).symm.trans met) (by decide)

theorem reprints_iff {e : LabelEngine} : e.reprints id = true ↔ ∃ j ∈ e.queue, j.kind = .reprint ∧ j.pack = id := by
  simp [LabelEngine.reprints]

theorem reprints_false {e : LabelEngine} (h : ∀ j ∈ e.queue, j.kind = .reprint → j.pack ≠ id) : e.reprints id = false := by
  rw [← Bool.not_eq_true, reprints_iff]
  rintro ⟨j, hj, kind, pack⟩
  exact h j hj kind pack

/-! ## The close of a pack (R161, R162) -/

/-- A pack is short unless it closed on a target. -/
theorem Pack.closed_eq (q : Pack) (cause : CloseCause) (time : Option Nat) : q.closed cause time =
    { q with
      state := .closed, cause := some cause, closedAt := time
      short := decide (cause ≠ CloseCause.target ∧ cause ≠ CloseCause.targetChange) } := by
  cases cause <;> rfl

/-- A pack's record, the close list and the alert, before the label queue is asked for a place. -/
def State.packClosed (s : State) (id : Nat) (cause : CloseCause) : State :=
  { s with packs := { s.packs with
      packs := keyModify Pack.id id (fun q => q.closed cause s.clock.stamp) s.packs.packs
      closeList := s.packs.closeList ++ [id] } }.raiseAll .packClosed

/-- The same pack LABEL_QUEUED, its job at the tail of the label queue. -/
def State.packQueued (s : State) (id : Nat) (cause : CloseCause) : State :=
  { (s.packClosed id cause).modifyPack id (fun q => { q with state := .labelQueued }) with
    label := { s.label with queue := s.label.queue ++ [(⟨.pack, id, none⟩ : Job)] } }

theorem closePack_full (full : 8 ≤ s.label.queue.length) : s.closePack lbsy id cause = s.packClosed id cause :=
  if_neg (Nat.not_lt.2 full)

theorem closePack_busy (room : s.label.queue.length < 8) (busy : s.label.state ≠ .idle) :
    s.closePack lbsy id cause = s.packQueued id cause :=
  (if_pos room).trans (if_neg busy)

theorem closePack_idle (room : s.label.queue.length < 8) (idle : s.label.state = .idle) :
    s.closePack lbsy id cause = (s.packQueued id cause).startHead lbsy :=
  (if_pos room).trans (if_pos idle)

end

end Sys2Proof.Machine

open Sys2Proof Sys2Proof.Machine in
/-- Settles O49: the lot requests by the lot, its state and the free charge entries; the close by the places of the label queue;
the pack requests by the bin's OPEN pack, and by the pack, its state and its REPRINT jobs. -/
theorem lotAndPackRequestsComplete : Obligations.LotAndPackRequestsComplete := by
  unfold Obligations.LotAndPackRequestsComplete
  refine ⟨fun p r n s hb hn => ⟨fun hr => ?closeAbsent, fun hr => ?convertAbsent⟩,
    fun p r n x s hb hn => ⟨fun hr => ⟨fun isOpen => ?closes, fun closed => ?closeRefused⟩, fun hr distinct => ?convert⟩,
    fun lbsy id cause s => ?close, fun p r lbsy s => ⟨fun bin tg hr ho hb => ?target, fun bin hr hb => ?closePack,
      fun id hr hb hq => ?releaseAbsent, fun id q hr hb hq => ?release⟩⟩
  case closeAbsent =>
    have act := closeLotAct_eq (p := p) (s := s) hb
    rw [hn] at act
    exact exec_take_refused rfl hr act
  case convertAbsent =>
    have act := convertLotAct_eq (p := p) (s := s) hb
    rw [hn] at act
    exact exec_take_refused rfl hr act
  case closes =>
    have act := closeLotAct_eq (p := p) (s := s) hb
    rw [hn, orRefuse, ok_bind, beq_iff_eq.2 isOpen] at act
    exact exec_take_done rfl hr act
  case closeRefused =>
    have act := closeLotAct_eq (p := p) (s := s) hb
    rw [hn, orRefuse, ok_bind, closed] at act
    exact exec_take_refused rfl hr act
  case convert =>
    have act := convertLotAct_eq (p := p) (s := s) hb
    rw [hn, orRefuse, ok_bind] at act
    refine ⟨fun room => ?_, fun full => ?_⟩
    · have free : s.chargeEntryFree = true := decide_eq_true room
      rw [free, dropRefs_eq distinct, originItems_eq, Lot.charge_eq] at act
      exact exec_take_done rfl hr act
    · have taken : s.chargeEntryFree = false := decide_eq_false (Nat.not_lt.2 full)
      rw [taken] at act
      exact exec_take_refused rfl hr act
  case close =>
    intro t u
    have closed : s.packClosed id cause = t := by
      simp only [State.packClosed, Pack.closed_eq]
      rfl
    have queued : s.packQueued id cause = u := by rw [State.packQueued, closed]
    rw [← closed, ← queued]
    exact ⟨closePack_full, closePack_busy, closePack_idle⟩
  case target =>
    have act := setBinTargetAct_eq (lbsy := lbsy) ho hb
    refine ⟨fun q hq met => ?_, fun unmet => ?_⟩
    · rw [meeting_some hq met] at act
      exact exec_take_done rfl hr act
    · rw [meeting_none unmet] at act
      exact exec_take_done rfl hr act
  case closePack =>
    have act := closePackAct_eq (p := p) (s := s) (lbsy := lbsy) hb
    refine ⟨fun q hq => ?_, fun hq => ?_⟩ <;> rw [hq] at act
    · refine exec_take_items rfl hr act ?_
      cases (s.closePack lbsy q.id .command).pack q.id <;> rfl
    · exact exec_take_refused rfl hr act
  case releaseAbsent =>
    have act := releasePackAct_eq (p := p) (s := s) hb
    rw [hq] at act
    exact exec_take_refused rfl hr act
  case release =>
    have act := releasePackAct_eq (p := p) (s := s) hb
    rw [hq, orRefuse, ok_bind] at act
    refine ⟨fun unlabelled => ?_, fun labelled queued => ?_, fun labelled unqueued distinct => ?_⟩
    · rw [beq_eq_false_iff_ne.2 unlabelled] at act
      exact exec_take_refused rfl hr act
    · rw [beq_iff_eq.2 labelled, reprints_iff.2 queued] at act
      exact exec_take_refused rfl hr act
    · rw [beq_iff_eq.2 labelled, reprints_false unqueued, dropRefs_eq distinct, originItems_eq] at act
      exact exec_take_done rfl hr act

end

section
/-! SUPPORT. The printer bus and the label engine (R162, R163, R173, R174, R177 to R182): the next cycle, the start of a job,
the CLOSED packs that fill the label queue, and what the end of a cycle does. -/

namespace Sys2Proof.Machine

section

variable {s : State} {e next : LabelEngine} {lbsy : Bool} {ld : Byte} {c : BusCycle} {k id : Nat} {ids later : List Nat}
  {j : Job} {rest : List Job} {q : Pack} {bs : List Byte}

/-! ## The next cycle (R177 to R179) -/

/-- Whatever LBSY shows, the next cycle changes the bus alone. -/
theorem beginCycle_eq : s.beginCycle lbsy = s.withLabel { s.label with bus := s.busFor lbsy s.label.nextCycle } := by
  cases lbsy <;> rfl

/-- The same for an engine that has just gone on. -/
theorem withLabel_beginCycle :
    (s.withLabel e).beginCycle lbsy = s.withLabel { e with bus := s.busFor lbsy e.nextCycle } := beginCycle_eq

/-- A field begins with its address, and so does the execute phase with address 0 (R179). -/
theorem nextCycle_address (hf : e.field = some k) (hp : e.place = 0) : e.nextCycle = .address (BitVec.ofNat 8 k) := by
  rw [LabelEngine.nextCycle, hf]
  cases k with
  | zero => rfl
  | succ k => simp only [LabelEngine.fieldCycle, hp]

/-- Behind its address a field sends its length and then its characters (R179). -/
theorem nextCycle_write {place : Nat} (hf : e.field = some k) (hk : k ≠ 0) (hp : e.place = place + 1) :
    e.nextCycle = .write (if place = 0 then BitVec.ofNat 8 (e.fieldText k).length
      else (e.fieldText k).getD (place - 1) 0) := by
  rw [LabelEngine.nextCycle, hf]
  cases k with
  | zero => exact absurd rfl hk
  | succ k =>
    cases place with
    | zero => simp only [LabelEngine.fieldCycle, hp, if_true]
    | succ i => simp only [LabelEngine.fieldCycle, hp, Nat.succ_ne_zero, if_false, Nat.add_sub_cancel]

theorem nextCycle_read (hf : e.field = none) : e.nextCycle = .read := by rw [LabelEngine.nextCycle, hf]

/-! ## The start of a job (R173, R174) -/

theorem startHead_empty (hq : s.label.queue = []) : s.startHead lbsy = s := by rw [State.startHead, hq]

/-- The head job starts with its serial, its fields and the LBSY sample before its first address cycle. -/
theorem startHead_eq (hq : s.label.queue = j :: rest) (hp : s.pack j.pack = some q) :
    s.startHead lbsy = s.withLabel { s.label with
      queue := { j with serial := some (s.label.startSerial j) } :: rest, state := .sending, halt := none
      haltPending := false, field := some 1
      lastSerial := if j.serial.isSome then s.label.lastSerial else s.label.startSerial j
      fields := s.labelFields j.kind (s.label.startSerial j) q, place := 0, reads := []
      bus := s.busFor lbsy (.address 1) } := by
  simp only [State.startHead, hq, hp, beginCycle_eq]
  rfl

/-! ## CLOSED packs and the label queue (R162) -/

/-- The CLOSED packs in close order, as the statement selects them. -/
theorem closedPacks_eq (s : State) : s.closedPacks =
    s.packs.closeList.filter fun id => decide (∃ q, s.pack id = some q ∧ q.state = .closed) := by
  refine List.filter_congr fun id _ => ?_
  cases hp : s.pack id <;> simp [beq_eq_decide]

/-- The packs `ids` LABEL_QUEUED. -/
def PackBuilder.labelQueued (b : PackBuilder) (ids : List Nat) : PackBuilder :=
  { b with packs := b.packs.map fun (q : Pack) => if q.id ∈ ids then { q with state := .labelQueued } else q }

/-- The PACK jobs of the packs `ids`, none with a serial yet. -/
def packJobs (ids : List Nat) : List Job := ids.map fun id => ⟨.pack, id, none⟩

/-- The packs `ids` have entered the label queue, and no job has started. -/
def State.enqueued (s : State) (ids : List Nat) : State :=
  (s.withPacks (s.packs.labelQueued ids)).withLabel { s.label with queue := s.label.queue ++ packJobs ids }

/-- One pack is marked by its record's change. -/
theorem labelQueued_one (b : PackBuilder) (id : Nat) : b.labelQueued [id] =
    { b with packs := keyModify Pack.id id (fun q => { q with state := .labelQueued }) b.packs } := by
  simp only [PackBuilder.labelQueued, List.mem_singleton]
  rfl

theorem labelQueued_append (b : PackBuilder) (ids later : List Nat) :
    (b.labelQueued ids).labelQueued later = b.labelQueued (ids ++ later) := by
  have marked (q : Pack) : (if q.id ∈ ids then { q with state := PackState.labelQueued } else q).id = q.id := by
    split <;> rfl
  simp only [PackBuilder.labelQueued, List.map_map, PackBuilder.mk.injEq, true_and, and_true]
  refine List.map_congr_left fun q _ => ?_
  rw [Function.comp_apply, marked]
  by_cases first : q.id ∈ ids
  · simp [first]
  · simp [first]

theorem enqueued_nil (s : State) : s.enqueued [] = s := by
  simp [State.enqueued, PackBuilder.labelQueued, packJobs, State.withPacks, State.withLabel]

theorem enqueued_append (s : State) (ids later : List Nat) :
    (s.enqueued ids).enqueued later = s.enqueued (ids ++ later) := by
  change _ = (s.withPacks (s.packs.labelQueued (ids ++ later))).withLabel
    { s.label with queue := s.label.queue ++ packJobs (ids ++ later) }
  rw [← labelQueued_append, packJobs, List.map_append, ← List.append_assoc]
  rfl

/-- A present pack is found again, LABEL_QUEUED. -/
theorem enqueued_pack (hq : s.pack id = some q) :
    (s.enqueued [id]).pack id = some { q with state := .labelQueued } := by
  rw [State.enqueued, labelQueued_one]
  exact (keyFind_keyModify (key := Pack.id) (f := fun q => { q with state := .labelQueued }) (fun _ => rfl) id _).trans
    (congrArg (Option.map _) hq)

theorem queuePack_eq (s : State) (lbsy : Bool) (id : Nat) : s.queuePack lbsy id =
    if s.label.state = .idle then (s.enqueued [id]).startHead lbsy else s.enqueued [id] := by
  rw [State.enqueued, labelQueued_one]
  rfl

/-- Behind a job in progress the packs wait. -/
theorem queueAll_busy : ∀ (ids : List Nat) (s : State), s.label.state ≠ .idle →
    ids.foldl (fun t id => t.queuePack lbsy id) s = s.enqueued ids
  | [], s, _ => (enqueued_nil s).symm
  | id :: ids, s, busy => by
    rw [List.foldl_cons, queuePack_eq, if_neg busy, queueAll_busy ids (s.enqueued [id]) busy, enqueued_append]
    rfl

/-- The CLOSED packs for which a place is left, in close order. -/
def State.entering (s : State) : List Nat := s.closedPacks.take (Config.labelPlaces - s.label.queue.length)

theorem fillQueue_eq (s : State) (lbsy : Bool) :
    s.fillQueue lbsy = s.entering.foldl (fun t id => t.queuePack lbsy id) s := rfl

theorem fillQueue_none (h : s.entering = []) : s.fillQueue lbsy = s := by rw [fillQueue_eq, h]; rfl

theorem fillQueue_busy (busy : s.label.state ≠ .idle) : s.fillQueue lbsy = s.enqueued s.entering :=
  queueAll_busy s.entering s busy

theorem fillQueue_haltPending (busy : s.label.state ≠ .idle) :
    (s.fillQueue lbsy).label.haltPending = s.label.haltPending := by
  rw [fillQueue_busy busy]; rfl

/-- An IDLE engine with an empty queue starts the first of the packs, and the later ones wait behind it. -/
theorem fillQueue_idle (idle : s.label.state = .idle) (empty : s.label.queue = []) (h : s.entering = id :: later)
    (hq : s.pack id = some q) :
    s.fillQueue lbsy = (s.withPacks (s.packs.labelQueued (id :: later))).withLabel { s.label with
      queue := ⟨.pack, id, some (wrapNext 999999 s.label.lastSerial)⟩ :: packJobs later, state := .sending, halt := none
      haltPending := false, field := some 1, lastSerial := wrapNext 999999 s.label.lastSerial
      fields := s.labelFields .pack (wrapNext 999999 s.label.lastSerial) q, place := 0, reads := []
      bus := s.busFor lbsy (.address 1) } := by
  have head : (s.enqueued [id]).label.queue = [⟨.pack, id, none⟩] := congrArg (· ++ packJobs [id]) empty
  have marked : (s.packs.labelQueued [id]).labelQueued later = s.packs.labelQueued (id :: later) :=
    labelQueued_append ..
  rw [fillQueue_eq, h, List.foldl_cons, queuePack_eq, if_pos idle, startHead_eq head (enqueued_pack hq),
    queueAll_busy]
  · rw [← marked]
    rfl
  · exact show EngineState.sending ≠ .idle from nofun

/-! ## A verified job (R163, R180) -/

/-- A PACK job makes its pack LABELLED and takes it off the close list; a REPRINT counts (R163). -/
theorem finishPack_eq (s : State) (j : Job) : s.finishPack j = s.withPacks { s.packs with
    closeList := if j.kind = .pack then s.packs.closeList.filter (fun id => id != j.pack) else s.packs.closeList
    packs := s.packs.packs.map fun (q : Pack) =>
      if q.id = j.pack then
        (if j.kind = .pack then { q with state := .labelled, serial := j.serial }
          else { q with reprints := min 255 (q.reprints + 1) })
      else q } := by
  obtain ⟨kind, pack, serial⟩ := j
  cases kind <;> rfl

/-- The state once the verified job has left the queue. -/
def State.jobDone (s : State) (j : Job) (rest : List Job) : State :=
  (s.finishPack j).withLabel { s.label with queue := rest }

/-- The engine IDLE after a job, its queue as it stands (R180). -/
def LabelEngine.jobEnded (e : LabelEngine) : LabelEngine :=
  { e with state := .idle, halt := none, field := none, fields := [], place := 0, reads := [], bus := .rest }

/-- Once the CLOSED packs have entered, a pending halt takes effect, or the engine is IDLE and starts the next job
(R162, R180, R182). -/
theorem completeJob_eq {u : State} (hu : (s.jobDone j rest).fillQueue lbsy = u) : s.completeJob lbsy j rest =
    if u.label.haltPending then u.withLabel (u.label.halted .command)
    else (u.withLabel u.label.jobEnded).startHead lbsy := by
  have ended : s.completeJob lbsy j rest = if u.label.afterJob.state = .idle
      then (u.withLabel u.label.afterJob).startHead lbsy else u.withLabel u.label.afterJob := by
    rw [← hu]; rfl
  rw [ended, LabelEngine.afterJob]
  split
  case isTrue => exact if_neg (show EngineState.halted ≠ .idle from nofun)
  case isFalse => exact if_pos (show EngineState.idle = .idle from rfl)

/-! ## The verify (R180, R181) -/

theorem verify_mismatch (hq : s.label.queue = j :: rest) (h : j.serial ≠ some (beNat bs)) :
    s.verify lbsy bs = (s.withLabel { s.label with lastVerify := some bs }).printerFault .verify := by
  simp only [State.verify, State.withLabel_label, hq, if_neg h]

theorem verify_match (hq : s.label.queue = j :: rest) (h : j.serial = some (beNat bs)) :
    s.verify lbsy bs = (s.withLabel { s.label with lastVerify := some bs }).completeJob lbsy j rest := by
  simp only [State.verify, State.withLabel_label, hq, if_pos h]

/-- The three bytes of a serial (R180). -/
theorem beNat_serial (a b c : Byte) : beNat [a, b, c] = a.toNat * 65536 + b.toNat * 256 + c.toNat := by
  simp only [beNat, List.foldl_cons, List.foldl_nil]
  omega

/-! ## The end of a cycle (R179, R180, R182) -/

/-- The bus between cycles (R177). -/
def State.atRest (s : State) : State := s.withLabel { s.label with bus := .rest }

theorem cycleEnd_field (hb : s.label.bus = .cycle c) (hf : s.label.field = some k) :
    s.cycleEnd lbsy ld = s.atRest.sendNext lbsy k := by
  simp only [State.cycleEnd, hb, State.withLabel_label, hf, State.atRest]

theorem cycleEnd_read (hb : s.label.bus = .cycle c) (hf : s.label.field = none) :
    s.cycleEnd lbsy ld = s.atRest.readNext lbsy ld := by
  simp only [State.cycleEnd, hb, State.withLabel_label, hf, State.atRest]

theorem cycleEnd_idle (hb : ∀ c, s.label.bus ≠ .cycle c) : s.cycleEnd lbsy ld = s := by
  unfold State.cycleEnd
  split
  · exact absurd ‹_› (hb _)
  · rfl

theorem fieldEnd_halts (hp : s.label.haltPending = true) :
    s.fieldEnd lbsy next = s.withLabel (s.label.halted .command) := if_pos hp

theorem fieldEnd_continues (hp : s.label.haltPending = false) :
    s.fieldEnd lbsy next = s.withLabel { next with bus := s.busFor lbsy next.nextCycle } :=
  (if_neg (Bool.eq_false_iff.1 hp)).trans withLabel_beginCycle

theorem sendNext_execute : s.sendNext lbsy 0 =
    s.fieldEnd lbsy { s.label with state := .verifying, field := none, place := 0, reads := [] } := rfl

/-- Inside a field the next byte follows. -/
theorem sendNext_inside (hf : s.label.field = some k) (hk : k ≠ 0) (h : s.label.place ≤ (s.label.fieldText k).length) :
    s.sendNext lbsy k = s.withLabel { s.label with
      place := s.label.place + 1
      bus := s.busFor lbsy (.write (if s.label.place = 0 then BitVec.ofNat 8 (s.label.fieldText k).length
        else (s.label.fieldText k).getD (s.label.place - 1) 0)) } := by
  have write := nextCycle_write (e := { s.label with place := s.label.place + 1 }) hf hk rfl
  rw [State.sendNext, if_neg hk, if_pos h, withLabel_beginCycle, write]
  rfl

theorem sendNext_last (hk : k ≠ 0) (h : (s.label.fieldText k).length < s.label.place) :
    s.sendNext lbsy k = s.fieldEnd lbsy { s.label with field := some (fieldAfter k), place := 0 } := by
  rw [State.sendNext, if_neg hk, if_neg (Nat.not_le.2 h)]

theorem readNext_more (hf : s.label.field = none) (h : s.label.reads.length < 3) :
    s.readNext lbsy ld =
      s.withLabel { s.label with reads := s.label.reads ++ [ld], bus := s.busFor lbsy .read } := by
  have read := nextCycle_read (e := { s.label with reads := s.label.reads ++ [ld] }) hf
  rw [State.readNext, if_pos h, withLabel_beginCycle, read]

/-- The fourth read ends the verify; the first byte is not part of the serial. -/
theorem readNext_fourth {a b1 b2 : Byte} (h : s.label.reads = [a, b1, b2]) :
    s.readNext lbsy ld = s.verify lbsy [b1, b2, ld] := by
  rw [State.readNext, h]; rfl

/-! ## The end of a wait (R178) -/

theorem busyFalls_waiting {n : Nat} (hb : s.label.bus = .waiting n) :
    s.busyFalls = s.withLabel { s.label with bus := s.busFor false s.label.nextCycle } := by
  rw [State.busyFalls, hb]; rfl

theorem busyFalls_idle (hb : ∀ n, s.label.bus ≠ .waiting n) : s.busyFalls = s := by
  unfold State.busyFalls
  split
  · exact absurd ‹_› (hb _)
  · rfl

theorem busyTimeout_waiting {n : Nat} (hb : s.label.bus = .waiting n) : s.busyTimeout = s.printerFault .timeout := by
  rw [State.busyTimeout, hb]

theorem busyTimeout_idle (hb : ∀ n, s.label.bus ≠ .waiting n) : s.busyTimeout = s := by
  unfold State.busyTimeout
  split
  · exact absurd ‹_› (hb _)
  · rfl

end

section

variable {s : State} (running : s.retention.phase = .running)
include running

theorem exec_lbsyFall : exec .lbsyFall s = .next s.busyFalls := event_running s running

theorem exec_printerTimeout : exec .printerTimeout s = .next s.busyTimeout := event_running s running

theorem exec_busCycleComplete (lbsy : Bool) (ld : Byte) :
    exec (.busCycleComplete lbsy ld) s = .next (s.cycleEnd lbsy ld) :=
  event_running (f := fun s => s.cycleEnd lbsy ld) s running

end

end Sys2Proof.Machine

open Sys2Proof Sys2Proof.Machine in
/-- Settles O51: the fill of the label queue by the state of the engine, the levels by the cycle and its phase, and each bus
event by the field, the place in it and the bytes read. -/
theorem busEventsDriveTheLabel : Obligations.BusEventsDriveTheLabel := by
  unfold Obligations.BusEventsDriveTheLabel
  refine ⟨fun lbsy s => ?fill, fun a d setup strobe hold n ph => ?levels, fun lbsy ld s running => ?events⟩
  case fill =>
    intro l packs waiting
    have entering : s.entering = l := by rw [State.entering, closedPacks_eq]; rfl
    refine ⟨fun busy => ?_, fun nothing => fillQueue_none (entering.trans nothing),
      fun id later q idle empty first hq => ?_⟩
    · rw [fillQueue_busy busy, entering]
      rfl
    · intro serial
      rw [fillQueue_idle idle empty (entering.trans first) hq, ← first]
      rfl
  case levels => cases ph <;> exact ⟨rfl, rfl, rfl, rfl, rfl⟩
  case events =>
    intro withLabel halted
    rw [exec_lbsyFall running, exec_printerTimeout running, exec_busCycleComplete running]
    refine ⟨fun n hb => ⟨congrArg _ (busyFalls_waiting hb), congrArg _ (busyTimeout_waiting hb)⟩,
      fun hb => ⟨congrArg _ (busyFalls_idle hb), congrArg _ (busyTimeout_idle hb)⟩,
      fun hb => congrArg _ (cycleEnd_idle hb), fun c hb => ⟨fun k hf hk => ?field, fun hf hp => ?execute,
        fun hf hp => ?executeHalts, fun hf few => ?reads, fun a b1 b2 j rest hf hr hq => ?verify⟩⟩
    case field =>
      intro text next
      rw [cycleEnd_field hb hf]
      refine ⟨fun inside => congrArg _ (sendNext_inside (s := s.atRest) hf hk inside), fun past hp => congrArg _ ?_,
        fun past hp => congrArg _ ((sendNext_last (s := s.atRest) hk past).trans (fieldEnd_halts hp))⟩
      rw [sendNext_last (s := s.atRest) hk past, fieldEnd_continues (s := s.atRest) hp, nextCycle_address rfl rfl]
      rfl
    case execute =>
      rw [cycleEnd_field hb hf, sendNext_execute, fieldEnd_continues (s := s.atRest) hp, nextCycle_read rfl]
      rfl
    case executeHalts =>
      rw [cycleEnd_field hb hf, sendNext_execute, fieldEnd_halts (s := s.atRest) hp]
      rfl
    case reads =>
      rw [cycleEnd_read hb hf, readNext_more (s := s.atRest) hf few]
      rfl
    case verify =>
      intro printed read
      rw [cycleEnd_read hb hf, readNext_fourth (s := s.atRest) hr]
      refine ⟨fun differs => congrArg _ (verify_mismatch (s := s.atRest) hq (by rwa [beNat_serial])), fun same => ?_⟩
      intro done u idle verifying
      have busy : done.label.state ≠ .idle := by rw [show done.label.state = .verifying from verifying]; nofun
      have pends : u.label.haltPending = s.label.haltPending := fillQueue_haltPending busy
      have filled : State.fillQueue ((s.atRest.withLabel read).jobDone j rest) lbsy = u := by
        rw [State.jobDone, finishPack_eq]
        rfl
      have ended := (verify_match (s := s.atRest) hq (by rwa [beNat_serial])).trans (completeJob_eq filled)
      rw [pends] at ended
      refine ⟨fun hp => congrArg _ (ended.trans (if_pos hp)), fun hp drained => congrArg _ ?_,
        fun hp _ => congrArg _ (ended.trans (if_neg (Bool.eq_false_iff.1 hp)))⟩
      exact ended.trans ((if_neg (Bool.eq_false_iff.1 hp)).trans (startHead_empty drained))

end

section
/-! SUPPORT. The mill clock and its calendar (R175, R192, R193): the date of a count of minutes is the date that was counted. -/

namespace Sys2Proof.Machine

/-! ## Years -/

theorem yearDays_ge (y : Nat) : 365 ≤ yearDays y := by
  unfold yearDays
  split <;> decide

theorem monthLengths_sum (y : Nat) : (monthLengths y).sum = yearDays y := by
  unfold monthLengths yearDays
  split <;> rfl

theorem daysBeforeYear_ge : ∀ n, 365 * n ≤ daysBeforeYear n
  | 0 => Nat.le_refl 0
  | n + 1 => Nat.add_le_add (daysBeforeYear_ge n) (yearDays_ge (2000 + n))

/-- A search from 2000 comes to the year `2000 + n` with the days of the years before it taken off. -/
theorem yearOfDay_skip : ∀ n fuel days,
    yearOfDay (fuel + n) 2000 (daysBeforeYear n + days) = yearOfDay fuel (2000 + n) days
  | 0, fuel, days => by rw [daysBeforeYear, Nat.zero_add]; rfl
  | n + 1, fuel, days => by
    have first := yearOfDay_skip n (fuel + 1) (yearDays (2000 + n) + days)
    rw [yearOfDay, if_neg (by omega), Nat.add_sub_cancel_left] at first
    rw [daysBeforeYear, Nat.add_assoc, Nat.add_comm n 1, ← Nat.add_assoc fuel 1 n, first, Nat.add_comm 1 n,
      ← Nat.add_assoc 2000 n 1]

/-- A day of the year `2000 + n` is found in it, whatever fuel past `n` is left. -/
theorem yearOfDay_day {n fuel days : Nat} (hf : n < fuel) (hd : days < yearDays (2000 + n)) :
    yearOfDay fuel 2000 (daysBeforeYear n + days) = (2000 + n, days) := by
  obtain ⟨spare, rfl⟩ : ∃ spare, fuel = spare + 1 + n := ⟨fuel - (n + 1), by omega⟩
  rw [yearOfDay_skip, yearOfDay, if_pos hd]

/-! ## Months -/

/-- A search from month `m` passes the months before the one that holds the day. -/
theorem monthOfDay_day : ∀ (lengths : List Nat) (k m days : Nat) (hk : k < lengths.length), days < lengths[k] →
    monthOfDay lengths m ((lengths.take k).sum + days) = (m + k, days)
  | n :: rest, 0, m, days, _, hd => by
    rw [List.take_zero, List.sum_nil, Nat.zero_add, monthOfDay, if_pos (show days < n from hd)]; rfl
  | n :: rest, k + 1, m, days, hk, hd => by
    rw [List.take_succ_cons, List.sum_cons, Nat.add_assoc, monthOfDay, if_neg (by omega), Nat.add_sub_cancel_left,
      monthOfDay_day rest k (m + 1) days (Nat.lt_of_succ_lt_succ hk) hd, Nat.add_assoc, Nat.add_comm 1 k]

/-- Month `k + 1` of a year by its place in the list of the months. -/
theorem monthDays_eq {y k : Nat} (hk : k < (monthLengths y).length) : monthDays y (k + 1) = (monthLengths y)[k] :=
  List.getD_eq_getElem _ _ hk

/-- The months up to one of them are no longer than the list. -/
theorem take_sum_add_le (l : List Nat) {k : Nat} (hk : k < l.length) : (l.take k).sum + l[k] ≤ l.sum := by
  rw [← List.sum_take_add_sum_drop l k, List.drop_eq_getElem_cons hk, List.sum_cons]
  omega

/-! ## Dates (R175, R193) -/

/-- The date of the count of a date is the date. -/
theorem dateOf_minutesOf {n k days hour minute : Nat} (hk : k < 12) (hd : days < monthDays (2000 + n) (k + 1))
    (hh : hour < 24) (hm : minute < 60) :
    dateOf (minutesOf ⟨2000 + n, k + 1, days + 1, hour, minute⟩) = ⟨2000 + n, k + 1, days + 1, hour, minute⟩ := by
  have twelve : k < (monthLengths (2000 + n)).length := hk
  rw [monthDays_eq twelve] at hd
  have inYear : ((monthLengths (2000 + n)).take k).sum + days < yearDays (2000 + n) := by
    have fits := take_sum_add_le _ twelve
    rw [monthLengths_sum] at fits
    omega
  have count : minutesOf ⟨2000 + n, k + 1, days + 1, hour, minute⟩ =
      (daysBeforeYear n + (((monthLengths (2000 + n)).take k).sum + days)) * 1440 + hour * 60 + minute := by
    simp only [minutesOf, daysBeforeMonth, Nat.add_sub_cancel_left, Nat.add_sub_cancel, Nat.add_assoc]
  have fuel := daysBeforeYear_ge n
  simp only [dateOf, count]
  generalize hdays : daysBeforeYear n + (((monthLengths (2000 + n)).take k).sum + days) = total
  have whole : (total * 1440 + hour * 60 + minute) / 1440 = total := by omega
  rw [whole, ← hdays, yearOfDay_day (by omega) inYear]
  dsimp only
  rw [monthOfDay_day _ k 1 days twelve hd, DateTime.mk.injEq]
  exact ⟨rfl, Nat.add_comm 1 k, rfl, by omega, by omega⟩

/-! ## The clock (R192, R193) -/

section

variable {s : State} {p : Port} {r : Request}

theorem setClockAct_eq {d : DateTime} (hb : readSetClock r.body = .ok d) : setClockAct p r s =
    .ok (s.withClock ⟨minutesOf d, true⟩, [.num 4 s.clock.minutes, .flag s.clock.isSet, .num 4 (minutesOf d)]) := by
  rw [setClockAct, hb]; rfl

theorem exec_millClockMinute (s : State) : exec .millClockMinute s = .next (s.withClock s.clock.minute) := rfl

theorem minute_set {c : MillClock} (h : c.isSet = true) : c.minute = ⟨min 4294967295 (c.minutes + 1), true⟩ := by
  rw [MillClock.minute, if_pos h, h]; rfl

theorem minute_unset {c : MillClock} (h : c.isSet = false) : c.minute = c :=
  if_neg (by rw [h]; decide)

end

end Sys2Proof.Machine

open Sys2Proof Sys2Proof.Machine in
/-- Settles O41: the take, the minute by the set flag, and the searches for the year and the month of a day. -/
theorem clockCountsMinutesOfTheCalendar : Obligations.ClockCountsMinutesOfTheCalendar := by
  unfold Obligations.ClockCountsMinutesOfTheCalendar
  refine ⟨fun p r d s hr hb => exec_take_done rfl hr (setClockAct_eq (p := p) hb), fun s => ⟨fun set => ?set, fun unset => ?unset⟩,
    fun d year _ month months day days hour minute => ?date⟩
  case set => rw [exec_millClockMinute, minute_set set]; rfl
  case unset => rw [exec_millClockMinute, minute_unset unset]; rfl
  case date =>
    obtain ⟨y, m, dd, h, mi⟩ := d
    obtain ⟨n, rfl⟩ := Nat.exists_eq_add_of_le year
    obtain ⟨k, rfl⟩ := Nat.exists_eq_add_of_le' month
    obtain ⟨before, rfl⟩ := Nat.exists_eq_add_of_le' day
    exact dateOf_minutesOf (Nat.lt_of_succ_le months) (Nat.lt_of_succ_le days) (Nat.lt_succ_of_le hour)
      (Nat.lt_succ_of_le minute)

end

section
/-! SUPPORT. The texts of a label (R174 to R176): numbers in decimal digits read back, and each of the sixteen fields. -/

namespace Sys2Proof.Machine

/-! ## Digits -/

/-- The number that decimal digits spell. -/
def textValue (t : Text) : Nat := t.foldl (fun n d => n * 10 + (d.toNat - 48)) 0

def AllDigits (t : Text) : Prop := ∀ d ∈ t, 48 ≤ d.toNat ∧ d.toNat ≤ 57

theorem digit_toNat (n : Nat) : (digit n).toNat = 48 + n % 10 := by
  rw [digit, BitVec.toNat_ofNat]
  omega

theorem textValue_append_digit (t : Text) (n : Nat) : textValue (t ++ [digit n]) = textValue t * 10 + n % 10 := by
  simp only [textValue, List.foldl_append, List.foldl_cons, List.foldl_nil, digit_toNat, Nat.add_sub_cancel_left]

theorem allDigits_nil : AllDigits [] := List.forall_mem_nil _

theorem AllDigits.append_digit {t : Text} (h : AllDigits t) (n : Nat) : AllDigits (t ++ [digit n]) := by
  refine List.forall_mem_append.2 ⟨h, List.forall_mem_singleton.2 ?_⟩
  rw [digit_toNat]
  omega

/-! ## Decimal numbers (R174) -/

theorem digitsOf_small (fuel : Nat) {n : Nat} (h : n < 10) : digitsOf fuel n = [digit n] := by
  cases fuel with
  | zero => rfl
  | succ fuel => exact if_pos h

/-- Fuel past the number changes nothing. -/
theorem digitsOf_eq_decimal {fuel n : Nat} (hf : n ≤ fuel) : digitsOf fuel n = decimal n := by
  suffices same : ∀ f g m, m ≤ f → m ≤ g → digitsOf f m = digitsOf g m from same fuel n n hf (Nat.le_refl n)
  intro f
  induction f with
  | zero =>
    intro g m hf _
    rw [digitsOf_small 0 (by omega), digitsOf_small g (by omega)]
  | succ f ih =>
    intro g m hf hg
    by_cases small : m < 10
    · rw [digitsOf_small _ small, digitsOf_small g small]
    · obtain ⟨g, rfl⟩ := Nat.exists_eq_succ_of_ne_zero (show g ≠ 0 by omega)
      rw [digitsOf, digitsOf, if_neg small, if_neg small, ih g (m / 10) (by omega) (by omega)]

theorem decimal_small {n : Nat} (h : n < 10) : decimal n = [digit n] := digitsOf_small n h

/-- A number of more digits ends with its last one, behind the digits of its tenth. -/
theorem decimal_tenth {n : Nat} (h : 10 ≤ n) : decimal n = decimal (n / 10) ++ [digit n] := by
  obtain ⟨less, rfl⟩ := Nat.exists_eq_succ_of_ne_zero (show n ≠ 0 by omega)
  rw [decimal, digitsOf, if_neg (by omega), digitsOf_eq_decimal (by omega)]

/-- What holds of each single digit, and of a text with one digit more, holds of every decimal number. -/
theorem decimal_induction {P : Nat → Text → Prop} (small : ∀ n, n < 10 → P n [digit n])
    (tenth : ∀ n, 10 ≤ n → P (n / 10) (decimal (n / 10)) → P n (decimal (n / 10) ++ [digit n])) (n : Nat) :
    P n (decimal n) := by
  induction n using Nat.strong_induction_on with
  | _ n ih =>
    by_cases h : n < 10
    · exact decimal_small h ▸ small n h
    · exact decimal_tenth (Nat.le_of_not_lt h) ▸ tenth n (by omega) (ih (n / 10) (by omega))

theorem textValue_decimal (n : Nat) : textValue (decimal n) = n := by
  refine decimal_induction (P := fun n t => textValue t = n) (fun n h => ?_) (fun n h ih => ?_) n
  · rw [← List.nil_append [digit n], textValue_append_digit]
    exact (Nat.zero_add _).trans (Nat.mod_eq_of_lt h)
  · rw [textValue_append_digit, ih]
    omega

theorem allDigits_decimal (n : Nat) : AllDigits (decimal n) :=
  decimal_induction (P := fun _ t => AllDigits t) (fun n _ => allDigits_nil.append_digit n)
    (fun n _ ih => ih.append_digit n) n

theorem decimal_ne_nil (n : Nat) : decimal n ≠ [] :=
  decimal_induction (P := fun _ t => t ≠ []) (fun _ _ => List.cons_ne_nil _ _)
    (fun _ _ _ => List.append_ne_nil_of_right_ne_nil _ (List.cons_ne_nil _ _)) n

/-- Only the number 0 begins with the digit 0. -/
theorem decimal_head_zero {n : Nat} : (decimal n).head? = some 0x30 → n = 0 := by
  refine decimal_induction (P := fun n t => t.head? = some 0x30 → n = 0) (fun n h head => ?_) (fun n h ih head => ?_) n
  · have value := digit_toNat n
    rw [Option.some.inj head] at value
    change 48 = _ at value
    omega
  · rw [List.head?_append_of_ne_nil _ (decimal_ne_nil _)] at head
    have := ih head
    omega

/-! ## Padded numbers (R175) -/

theorem padded_length : ∀ w n, (padded w n).length = w
  | 0, _ => rfl
  | w + 1, n => by rw [padded, List.length_append, padded_length w]; rfl

theorem allDigits_padded : ∀ w n, AllDigits (padded w n)
  | 0, _ => allDigits_nil
  | w + 1, n => (allDigits_padded w (n / 10)).append_digit n

theorem textValue_padded : ∀ w n, textValue (padded w n) = n % 10 ^ w
  | 0, n => (Nat.mod_one n).symm
  | w + 1, n => by
    rw [padded, textValue_append_digit, textValue_padded w, Nat.pow_succ', Nat.mod_mul]
    omega

/-- A number is the digits before its stop and the `w` digits behind it. -/
theorem value_at_stop (w n : Nat) : n / 10 ^ w * 10 ^ w + textValue (padded w n) = n := by
  rw [textValue_padded, Nat.div_add_mod']

theorem meanText_metered {m : Nat} (hm : 0 < m) (sum : Nat) :
    meanText m sum = decimal (roundHalfUp sum m / 10 ^ 1) ++ chStop :: padded 1 (roundHalfUp sum m) :=
  if_neg hm.ne'

/-! ## The fields composed from a pack's contributors (R176) -/

/-- The highest final target among the contributors' charges, 0 where none has one. -/
def State.highestTarget (s : State) (cs : List Contributor) : Nat :=
  ((s.contributorCharges cs).filterMap Charge.finalTarget).foldl max 0

section

variable {s : State} {cs : List Contributor} {q : Pack}

theorem highestTarget_eq (s : State) (cs : List Contributor) :
    s.highestTarget cs = ((s.contributorCharges cs).filterMap Charge.finalTarget).max?.getD 0 := by
  rw [State.highestTarget, List.foldl_max, Nat.zero_max]

theorem le_highestTarget {c : Charge} {tg : Nat} (hc : c ∈ s.contributorCharges cs) (ht : c.finalTarget = some tg) :
    tg ≤ s.highestTarget cs := by
  rw [highestTarget_eq]
  exact List.le_max?_getD_of_mem (List.mem_filterMap.2 ⟨c, hc, ht⟩)

theorem highestTarget_attained (s : State) (cs : List Contributor) :
    s.highestTarget cs = 0 ∨ ∃ c ∈ s.contributorCharges cs, c.finalTarget = some (s.highestTarget cs) := by
  rw [highestTarget_eq]
  cases highest : ((s.contributorCharges cs).filterMap Charge.finalTarget).max? with
  | none => exact .inl rfl
  | some _ => exact .inr (List.mem_filterMap.1 (List.max?_mem highest))

/-- HT stands on a label where every contributor is present and certified and there are no other pieces. -/
theorem marksHeat_iff : s.marksHeat q = true ↔
    q.other = 0 ∧ ∀ c ∈ q.contributors, ∃ d, s.charge c.charge = some d ∧ d.flags.htCertified = true := by
  rw [State.marksHeat, Bool.and_eq_true, beq_iff_eq, List.all_eq_true]
  refine and_congr_right fun _ => forall₂_congr fun c _ => ?_
  cases s.charge c.charge <;> simp

theorem dateText_eq (d : DateTime) : dateText d = yearText d.year ++ [0x2D] ++ padded 2 d.month ++ [0x2D] ++
    padded 2 d.day ++ [0x20] ++ padded 2 d.hour ++ [0x3A] ++ padded 2 d.minute := by
  simp [dateText, chHyphen, chSpace, chColon]

theorem yearText_length (y : Nat) : (yearText y).length = 4 := by
  unfold yearText
  split
  · exact padded_length 4 y
  · rfl

end

end Sys2Proof.Machine

open Sys2Proof Sys2Proof.Machine in
/-- Settles O52: the numbers digit by digit, the two rounded figures at their stop, and the sixteen fields as they stand. -/
theorem labelTextsReadBack : Obligations.LabelTextsReadBack := by
  unfold Obligations.LabelTextsReadBack
  refine ⟨fun n => ⟨textValue_decimal n, allDigits_decimal n, decimal_ne_nil n, decimal_head_zero⟩,
    fun w n => ⟨padded_length w n, allDigits_padded w n, textValue_padded w n⟩, fun v => ?volume, fun m sum hm => ?mean,
    fun sum => rfl, fun kind serial q s => ?fields⟩
  case volume =>
    obtain ⟨low, high⟩ := roundHalfUp_bounds v (d := 1000) (by decide)
    refine ⟨roundHalfUp v 1000 / 10 ^ 3, padded 3 (roundHalfUp v 1000), rfl, padded_length .., allDigits_padded _ _, ?_⟩
    have value := value_at_stop 3 (roundHalfUp v 1000)
    change _ * (_ + textValue _) ≤ _ ∧ _ < _ * (_ + textValue _ + 1)
    omega
  case mean =>
    have bounds := roundHalfUp_bounds sum hm
    have value := value_at_stop 1 (roundHalfUp sum m)
    refine ⟨roundHalfUp sum m / 10 ^ 1, padded 1 (roundHalfUp sum m), meanText_metered hm sum, padded_length ..,
      allDigits_padded _ _, ?_⟩
    change 2 * m * (_ / 10 ^ 1 * 10 ^ 1 + textValue _) ≤ _ ∧ _ < 2 * m * (_ / 10 ^ 1 * 10 ^ 1 + textValue _ + 1)
    rwa [value]
  case fields =>
    intro charges
    obtain ⟨low, high⟩ := roundHalfUp_bounds (s.highestTarget q.contributors) (d := 10) (by decide)
    refine ⟨s.highestTarget q.contributors, roundHalfUp (s.highestTarget q.contributors) 10, closedText q.closedAt, ?_,
      fun c hc tg ht => le_highestTarget hc ht, highestTarget_attained s q.contributors, low, high,
      fun unclosed => by rw [unclosed]; rfl, fun m stamped => ?_⟩
    · simp only [State.labelFields, List.cons.injEq, true_and]
      refine ⟨?species, rfl, rfl, rfl, if_congr marksHeat_iff rfl rfl, rfl, ?mark, trivial⟩
      case species => cases s.species q.key.species <;> rfl
      case mark => cases kind <;> rfl
    · intro d
      exact ⟨yearText d.year, yearText_length d.year, fun early => if_pos early, by rw [stamped]; exact dateText_eq d⟩

end

section
/-! SUPPORT. The printer requests at their takes (R172, R182, R183), and what the start of a job leaves at the head of the queue
(R173, R174). -/

namespace Sys2Proof.Machine

section

variable {s : State} {p : Port} {r : Request} {lbsy : Bool} {j : Job} {rest : List Job}

/-- A job without a serial starts with the one after the last, which wraps from 999999 to 1 (R173). -/
theorem startSerial_eq (e : LabelEngine) (j : Job) : e.startSerial j = match j.serial with
    | some n => n
    | none => if e.lastSerial < 999999 then e.lastSerial + 1 else 1 := by
  rw [LabelEngine.startSerial]
  cases j.serial <;> rfl

/-- The head job has its serial once it starts, whether or not its pack is still present. -/
theorem startHead_queue (hq : s.label.queue = j :: rest) :
    (s.startHead lbsy).label.queue = { j with serial := some (s.label.startSerial j) } :: rest := by
  simp only [State.startHead, hq, beginCycle_eq, State.withLabel_label]

theorem startHead_state (hq : s.label.queue = j :: rest) : (s.startHead lbsy).label.state = .sending := by
  simp only [State.startHead, hq, beginCycle_eq, State.withLabel_label]

/-! ## REPRINT (R172) -/

theorem reprintAct_eq {id : Nat} (ho : Owns s p .printer) (hb : readOne 2 1 65535 r.body = .ok id) :
    reprintAct lbsy p r s = (orRefuse (s.pack id) .noSuch >>= fun q => require (q.state == .labelled) .badState >>= fun _ =>
      require (decide (s.label.queue.length < 8)) .tableFull >>= fun _ =>
      .ok (s.appendJob lbsy ⟨.reprint, id, q.serial⟩,
        [.num 2 id, optNum 4 q.serial, .num 1 (s.label.queue.length + 1)])) := by
  rw [reprintAct, claimCheck_owns ho, hb]; rfl

/-! ## HALT PRINTER (R182) -/

theorem haltPrinterAct_eq (ho : Owns s p .printer) : haltPrinterAct p r s =
    (orRefuse s.label.haltRequested .badState >>= fun e =>
      .ok (s.withLabel e, [.sym (.engine e.state), .flag e.haltPending, optNum 1 e.field])) := by
  rw [haltPrinterAct, claimCheck_owns ho]; rfl

section

variable {e : LabelEngine}

theorem haltRequested_idle (h : e.state = .idle) : e.haltRequested = some (e.halted .command) := by
  rw [LabelEngine.haltRequested, h]

theorem haltRequested_busy (h : e.state = .sending ∨ e.state = .verifying) (clear : e.haltPending = false) :
    e.haltRequested = some { e with haltPending := true } := by
  rcases h with h | h <;> simp [LabelEngine.haltRequested, h, clear]

/-- An engine that is HALTED, or has a halt pending, has nothing to halt. -/
theorem haltRequested_none (h : e.state = .halted ∨ (e.state ≠ .idle ∧ e.haltPending = true)) :
    e.haltRequested = none := by
  rcases h with halted | ⟨busy, pends⟩
  · simp [LabelEngine.haltRequested, halted]
  · cases hs : e.state with
    | idle => exact absurd hs busy
    | sending | verifying | halted => simp [LabelEngine.haltRequested, hs, pends]

end

/-! ## RESUME PRINTER (R183) -/

/-- The items of the job at the head of a queue, or of none (R183). -/
def headItems : List Job → List Field
  | j :: _ => j.fields
  | [] => [.absent 1, .absent 2, .absent 4]

theorem resumePrinterAct_eq (ho : Owns s p .printer) : resumePrinterAct lbsy p r s =
    (orRefuse (s.resumed lbsy) .badState >>= fun t =>
      .ok (t, .sym (.engine t.label.state) :: headItems t.label.queue)) := by
  rw [resumePrinterAct, claimCheck_owns ho]; rfl

theorem resumed_empty (h : s.label.state = .halted) (hq : s.label.queue = []) :
    s.resumed lbsy = some (s.withLabel { s.label with state := .idle, halt := none }) := by
  simp only [State.resumed, h, hq, List.isEmpty_nil, if_true]

theorem resumed_restarts (h : s.label.state = .halted) (hq : s.label.queue = j :: rest) :
    s.resumed lbsy = some (s.startHead lbsy) := by
  simp only [State.resumed, h, hq, List.isEmpty_cons, Bool.false_eq_true, if_false]

theorem resumed_busy (h : s.label.state = .sending ∨ s.label.state = .verifying) (pends : s.label.haltPending = true) :
    s.resumed lbsy = some (s.withLabel { s.label with haltPending := false }) := by
  rcases h with h | h <;> simp [State.resumed, h, pends]

/-- An engine that is IDLE, or runs with no halt pending, has nothing to resume. -/
theorem resumed_none (h : s.label.state = .idle ∨ (s.label.state ≠ .halted ∧ s.label.haltPending = false)) :
    s.resumed lbsy = none := by
  rcases h with idle | ⟨runs, clear⟩
  · simp [State.resumed, idle]
  · cases hs : s.label.state with
    | halted => exact absurd hs runs
    | idle | sending | verifying => simp [State.resumed, hs, clear]

end

end Sys2Proof.Machine

open Sys2Proof Sys2Proof.Machine in
/-- Settles O50: the start of the head job, then the three requests by the pack, the queue and the state of the engine. -/
theorem printerRequestsComplete : Obligations.PrinterRequestsComplete := by
  unfold Obligations.PrinterRequestsComplete
  refine ⟨fun lbsy j rest q s hq hp => ?start, fun p r lbsy s ho => ⟨fun id hr hb hn => ?absent, fun id q hr hb hn => ?reprint,
    fun hr => ?halt, fun hr => ?resume⟩⟩
  case start =>
    intro serial
    rw [startHead_eq hq hp, startSerial_eq]
    rfl
  case absent =>
    refine exec_take_refused rfl hr ((reprintAct_eq ho hb).trans ?_)
    rw [hn]
    rfl
  case reprint =>
    intro t body
    have act : reprintAct lbsy p r s = _ := reprintAct_eq ho hb
    rw [hn, orRefuse, ok_bind] at act
    refine ⟨fun labelled room busy => ?_, fun labelled room idle => ?_, fun unlabelled => ?_, fun labelled full => ?_⟩
    · rw [beq_iff_eq.2 labelled, decide_eq_true room, State.appendJob, if_neg busy] at act
      exact exec_take_done rfl hr act
    · rw [beq_iff_eq.2 labelled, decide_eq_true room, State.appendJob, if_pos idle] at act
      exact exec_take_done rfl hr act
    · rw [beq_eq_false_iff_ne.2 unlabelled] at act
      exact exec_take_refused rfl hr act
    · rw [beq_iff_eq.2 labelled, decide_eq_false (Nat.not_lt.2 full)] at act
      exact exec_take_refused rfl hr act
  case halt =>
    have act := haltPrinterAct_eq (r := r) ho
    refine ⟨fun idle => ?_, fun busy clear => ?_, fun refused => ?_⟩
    · rw [haltRequested_idle idle] at act
      exact exec_take_done rfl hr act
    · rw [haltRequested_busy busy clear] at act
      exact exec_take_done rfl hr act
    · rw [haltRequested_none refused] at act
      exact exec_take_refused rfl hr act
  case resume =>
    have act := resumePrinterAct_eq (r := r) (lbsy := lbsy) ho
    refine ⟨fun halted empty => ?_, fun j rest halted hq => ?_, fun j rest busy pends hq => ?_, fun refused => ?_⟩
    · rw [resumed_empty halted empty, orRefuse, ok_bind, State.withLabel_label, empty] at act
      exact exec_take_done rfl hr act
    · rw [resumed_restarts halted hq, orRefuse, ok_bind, startHead_state hq, startHead_queue hq, startSerial_eq] at act
      exact exec_take_done rfl hr act
    · rw [resumed_busy busy pends, orRefuse, ok_bind, State.withLabel_label, hq] at act
      exact exec_take_done rfl hr act
    · rw [resumed_none refused] at act
      exact exec_take_refused rfl hr act

end

section
/-! SUPPORT. What a trace write does, whether or not the log has wrapped (R187, R188, R191), and SET TRACE MARK (R191). -/

namespace Sys2Proof.Machine

section

variable {g : TraceLog} {s : State} {p : Port} {r : Request} {k : KilnNo} {id n : Nat} {kind : TraceKind}

/-! ## The log as a write finds it -/

theorem TraceLog.wrapped_iff : g.wrapped = true ↔ g.next = 1 ∧ g.ring ≠ [] := by
  simp [TraceLog.wrapped]

theorem TraceLog.ready_wrapped (first : g.next = 1) (held : g.ring ≠ []) :
    g.ready = { ring := [], next := 1, mark := none } := by
  rw [TraceLog.ready, if_pos (wrapped_iff.2 ⟨first, held⟩), first]

theorem TraceLog.ready_unwrapped (h : g.next ≠ 1 ∨ g.ring = []) : g.ready = g :=
  if_neg fun wrapped => h.elim (· (wrapped_iff.1 wrapped).1) (wrapped_iff.1 wrapped).2

theorem TraceLog.reaches_iff : g.reaches = true ↔ ∃ m, g.mark = some m ∧ m ≤ g.next := by
  unfold TraceLog.reaches
  cases g.mark <;> simp

/-! ## The write -/

/-- A stale flag or no report leaves a record without the values of a report (R187, R84). -/
theorem freshReport_none {kl : Kiln} (h : kl.stale = true ∨ kl.report = none) : kl.freshReport = none := by
  rcases h with stale | unreported
  · exact if_pos stale
  · rw [Kiln.freshReport, unreported, ite_self]

theorem writeTrace_trace :
    (s.writeTrace k id kind).trace = s.trace.ready.place (s.traceRecord k id kind) := raiseIf_trace ..

theorem writeTrace_reached (h : s.trace.ready.reaches = true) :
    s.writeTrace k id kind = (s.withTrace (s.writeTrace k id kind).trace).raiseAll .traceMark := by
  rw [writeTrace_trace]
  exact if_pos h

theorem writeTrace_unreached (h : s.trace.ready.reaches ≠ true) :
    s.writeTrace k id kind = s.withTrace (s.writeTrace k id kind).trace := by
  rw [writeTrace_trace]
  exact if_neg h

theorem writeTrace_wrapped (first : s.trace.next = 1) (held : s.trace.ring ≠ []) :
    s.writeTrace k id kind = s.withTrace { ring := [s.traceRecord k id kind], next := 2, mark := none } := by
  rw [State.writeTrace, TraceLog.ready_wrapped first held]
  rfl

/-! ## SET TRACE MARK (R191) -/

theorem setTraceMarkAct_eq (hb : readOne 4 0 4294967295 r.body = .ok n) : setTraceMarkAct p r s =
    .ok ((s.withTrace { s.trace with mark := s.trace.markAfter n }).raiseIf (s.trace.fires n) .traceMark,
      [optNum 4 s.trace.mark, optNum 4 (s.trace.markAfter n), .flag (s.trace.fires n), .num 4 s.trace.next]) := by
  rw [setTraceMarkAct, max32, hb]; rfl

theorem markAfter_absent (h : n = 0 ∨ n < g.next) : g.markAfter n = none := if_pos h

theorem markAfter_present (present : 1 ≤ n) (ahead : g.next ≤ n) : g.markAfter n = some n := if_neg (by omega)

theorem fires_iff : g.fires n = true ↔ 1 ≤ n ∧ n < g.next := by
  simp [TraceLog.fires]

theorem fires_false (h : n = 0 ∨ g.next ≤ n) : g.fires n = false :=
  Bool.eq_false_iff.2 fun fires => by
    have := fires_iff.1 fires
    omega

end

end Sys2Proof.Machine

open Sys2Proof Sys2Proof.Machine in
/-- Settles O40: the record item by item, the write by whether the log has wrapped and the mark is reached, and SET TRACE MARK
by where its sequence lies. -/
theorem traceWritesAndTheMark : Obligations.TraceWritesAndTheMark := by
  unfold Obligations.TraceWritesAndTheMark
  refine ⟨fun k id kind s => ⟨rfl, rfl, rfl, rfl, rfl, rfl, rfl, rfl, fun stale => ?stale, fun unwrapped => ?write,
    writeTrace_wrapped⟩, fun p r n s hr hb => ?mark⟩
  case stale => simp [State.traceRecord, freshReport_none stale]
  case write =>
    have ready := TraceLog.ready_unwrapped unwrapped
    have trace : (s.writeTrace k id kind).trace = s.trace.place (s.traceRecord k id kind) := by
      rw [writeTrace_trace, ready]
    refine ⟨congrArg TraceLog.ring trace, congrArg TraceLog.next trace, fun reached => ?_, fun unreached => ?_⟩
    · have reaches := TraceLog.reaches_iff.2 reached
      exact ⟨(congrArg TraceLog.mark trace).trans (if_pos reaches), writeTrace_reached (ready.symm ▸ reaches)⟩
    · have passes := mt TraceLog.reaches_iff.1 unreached
      exact ⟨(congrArg TraceLog.mark trace).trans (if_neg passes), writeTrace_unreached (ready.symm ▸ passes)⟩
  case mark =>
    have act := setTraceMarkAct_eq (p := p) (s := s) hb
    refine ⟨fun zero => ?cleared, fun present passed => ?fired, fun present ahead => ?set⟩
    case cleared =>
      rw [markAfter_absent (.inl zero), fires_false (.inl zero)] at act
      exact exec_take_done rfl hr act
    case fired =>
      rw [markAfter_absent (.inr passed), fires_iff.2 ⟨present, passed⟩] at act
      exact exec_take_done rfl hr act
    case set =>
      rw [markAfter_present present ahead, fires_false (.inr ahead)] at act
      exact exec_take_done rfl hr act

end

section
/-! SUPPORT. What the model's shared operations do to a state that another queue of waiting commands stands in: each passes the
queue on as it is, and none reads it. -/

namespace Sys2Proof.Machine

section
variable {s t : State} {l : List Instr}

/-! ## Reads -/

@[simp] theorem State.withPending_port (p : Port) : (s.withPending l).port p = s.port p := rfl
@[simp] theorem State.withPending_claim (r : Resource) : (s.withPending l).claim r = s.claim r := rfl
@[simp] theorem State.withPending_kiln (k : KilnNo) : (s.withPending l).kiln k = s.kiln k := rfl
@[simp] theorem State.withPending_charge (id : Nat) : (s.withPending l).charge id = s.charge id := rfl
@[simp] theorem State.withPending_kilnCharge (k : KilnNo) : (s.withPending l).kilnCharge k = s.kilnCharge k := rfl
@[simp] theorem State.withPending_scheduleOf (c : Charge) : (s.withPending l).scheduleOf c = s.scheduleOf c := rfl
@[simp] theorem State.withPending_reportingCharge (k : KilnNo) :
    (s.withPending l).reportingCharge k = s.reportingCharge k := rfl
@[simp] theorem State.withPending_inUse (n : Nat) : (s.withPending l).inUse n = s.inUse n := rfl
@[simp] theorem State.withPending_param (n : Nat) : (s.withPending l).param n = s.param n := rfl
@[simp] theorem State.withPending_openLot (sp th : Nat) : (s.withPending l).openLot sp th = s.openLot sp th := rfl
@[simp] theorem State.withPending_nextLotNumber : (s.withPending l).nextLotNumber = s.nextLotNumber := rfl
@[simp] theorem State.withPending_pack (id : Nat) : (s.withPending l).pack id = s.pack id := rfl
@[simp] theorem State.withPending_openPack (bin : Nat) : (s.withPending l).openPack bin = s.openPack bin := rfl
@[simp] theorem State.withPending_nextPackId : (s.withPending l).nextPackId = s.nextPackId := rfl
@[simp] theorem State.withPending_target (bin : Nat) : (s.withPending l).target bin = s.target bin := rfl
@[simp] theorem State.withPending_meeting (bin : Nat) (t : BinTarget) :
    (s.withPending l).meeting bin t = s.meeting bin t := rfl
@[simp] theorem State.withPending_labelFields (kind : JobKind) (serial : Nat) (q : Pack) :
    (s.withPending l).labelFields kind serial q = s.labelFields kind serial q := rfl
@[simp] theorem State.withPending_runOpen : (s.withPending l).runOpen = s.runOpen := rfl
@[simp] theorem State.withPending_meterBoard (n : Run) (f : MeterFrame) (b : Board) :
    (s.withPending l).meterBoard n f b = s.meterBoard n f b := rfl
@[simp] theorem State.withPending_volumeOf (n : Run) (b : Board) (g : GradeReport) :
    (s.withPending l).volumeOf n b g = s.volumeOf n b g := rfl
@[simp] theorem State.withPending_offered (p : Port) (code : Byte) :
    (s.withPending l).offered p code = s.offered p code := rfl
@[simp] theorem State.withPending_traceRecord (k : KilnNo) (id : Nat) (kind : TraceKind) :
    (s.withPending l).traceRecord k id kind = s.traceRecord k id kind := rfl
@[simp] theorem State.withPending_occupied : (s.withPending l).occupied = s.occupied := rfl

/-! ## The update of each block -/

@[simp] theorem State.withPending_withPorts (x : Ports) :
    (s.withPending l).withPorts x = (s.withPorts x).withPending l := rfl
@[simp] theorem State.withPending_withClaims (x : Claims) :
    (s.withPending l).withClaims x = (s.withClaims x).withPending l := rfl
@[simp] theorem State.withPending_withTracker (x : Tracker) :
    (s.withPending l).withTracker x = (s.withTracker x).withPending l := rfl
@[simp] theorem State.withPending_withLots (x : LotTable) :
    (s.withPending l).withLots x = (s.withLots x).withPending l := rfl
@[simp] theorem State.withPending_withPacks (x : PackBuilder) :
    (s.withPending l).withPacks x = (s.withPacks x).withPending l := rfl
@[simp] theorem State.withPending_withLabel (x : LabelEngine) :
    (s.withPending l).withLabel x = (s.withLabel x).withPending l := rfl
@[simp] theorem State.withPending_withTrace (x : TraceLog) :
    (s.withPending l).withTrace x = (s.withTrace x).withPending l := rfl
@[simp] theorem State.withPending_withRetention (x : Retention) :
    (s.withPending l).withRetention x = (s.withRetention x).withPending l := rfl

/-! ## Updates inside a block -/

@[simp] theorem State.withPending_setPort (p : Port) (x : PortUnit) :
    (s.withPending l).setPort p x = (s.setPort p x).withPending l := rfl
@[simp] theorem State.withPending_setClaim (r : Resource) (x : ClaimRecord) :
    (s.withPending l).setClaim r x = (s.setClaim r x).withPending l := rfl
@[simp] theorem State.withPending_setKiln (k : KilnNo) (x : Kiln) :
    (s.withPending l).setKiln k x = (s.setKiln k x).withPending l := rfl
@[simp] theorem State.withPending_modifyCharge (id : Nat) (f : Charge → Charge) :
    (s.withPending l).modifyCharge id f = (s.modifyCharge id f).withPending l := rfl
@[simp] theorem State.withPending_setInUse (n count : Nat) :
    (s.withPending l).setInUse n count = (s.setInUse n count).withPending l := rfl
@[simp] theorem State.withPending_modifyPack (id : Nat) (f : Pack → Pack) :
    (s.withPending l).modifyPack id f = (s.modifyPack id f).withPending l := rfl
@[simp] theorem State.withPending_addCharge (c : Charge) :
    (s.withPending l).addCharge c = (s.addCharge c).withPending l := rfl
@[simp] theorem State.withPending_setTarget (bin : Nat) (t : BinTarget) :
    (s.withPending l).setTarget bin t = (s.setTarget bin t).withPending l := rfl
@[simp] theorem State.withPending_withRun (r : Option Run) :
    (s.withPending l).withRun r = (s.withRun r).withPending l := rfl
@[simp] theorem State.withPending_endRun (r : Run) (kind : EndKind) :
    (s.withPending l).endRun r kind = (s.endRun r kind).withPending l := rfl
@[simp] theorem State.withPending_enterBuffer (p : Port) (a : Answer) :
    (s.withPending l).enterBuffer p a = (s.enterBuffer p a).withPending l := rfl

/-! ## Choices and lists -/

/-- A choice between two values that are each `f` of another. -/
theorem ite_through {α β : Type} (f : α → β) {c : Prop} [Decidable c] {x y : α} {x' y' : β} (hx : x' = f x)
    (hy : y' = f y) : (if c then x' else y') = f (if c then x else y) := by
  rw [apply_ite f, hx, hy]

/-- A choice whose two branches pass the queue on. -/
theorem ite_withPending {c : Prop} [Decidable c] {s' t' : State} (hs : s' = s.withPending l) (ht : t' = t.withPending l) :
    (if c then s' else t') = (if c then s else t).withPending l :=
  ite_through (State.withPending · l) hs ht

/-- A fold whose every round passes the queue on. -/
theorem foldl_withPending {α : Type} {f : State → α → State} (hf : ∀ t a, f (t.withPending l) a = (f t a).withPending l)
    (xs : List α) : xs.foldl f (s.withPending l) = (xs.foldl f s).withPending l :=
  List.foldl_hom (State.withPending · l) hf

@[simp] theorem State.withPending_dropRefs (cs : List Contributor) :
    (s.withPending l).dropRefs cs = (s.dropRefs cs).withPending l :=
  foldl_withPending (fun _ _ => rfl) cs

@[simp] theorem State.withPending_planeAll (ids : List Nat) :
    (s.withPending l).planeAll ids = (s.planeAll ids).withPending l :=
  foldl_withPending (fun _ _ => rfl) ids

@[simp] theorem State.withPending_settleAll (ids : List Nat) :
    (s.withPending l).settleAll ids = (s.settleAll ids).withPending l :=
  foldl_withPending (fun _ _ => rfl) ids

/-! ## Alerts and the trace log -/

@[simp] theorem State.withPending_raiseAll (c : Cause) :
    (s.withPending l).raiseAll c = (s.raiseAll c).withPending l := rfl

@[simp] theorem State.withPending_raiseIf (b : Bool) (c : Cause) :
    (s.withPending l).raiseIf b c = (s.raiseIf b c).withPending l :=
  ite_withPending rfl rfl

@[simp] theorem State.withPending_writeTrace (k : KilnNo) (id : Nat) (kind : TraceKind) :
    (s.withPending l).writeTrace k id kind = (s.writeTrace k id kind).withPending l := by
  simp [State.writeTrace]

@[simp] theorem State.withPending_restartRecords (xs : List (KilnNo × Nat)) :
    (s.withPending l).restartRecords xs = (s.restartRecords xs).withPending l :=
  foldl_withPending (fun _ _ => State.withPending_writeTrace _ _ _) xs

@[simp] theorem State.withPending_claimLost (q : Option Port) :
    (s.withPending l).claimLost q = (s.claimLost q).withPending l := by
  unfold State.claimLost
  split <;> rfl

/-! ## Charges and kilns -/

@[simp] theorem State.withPending_setSamples (c : Charge) (xs : List Sample) :
    (s.withPending l).setSamples c xs = (s.setSamples c xs).withPending l := by
  simp [State.setSamples]

@[simp] theorem State.withPending_loadKiln (k : KilnNo) (c : Charge) (x : Schedule) :
    (s.withPending l).loadKiln k c x = (s.loadKiln k c x).withPending l := by
  simp [State.loadKiln]

@[simp] theorem State.withPending_unloadLoaded (k : KilnNo) (c : Charge) :
    (s.withPending l).unloadLoaded k c = (s.unloadLoaded k c).withPending l := by
  unfold State.unloadLoaded
  cases c.schedule <;> simp

@[simp] theorem State.withPending_unloadDried (k : KilnNo) (c : Charge) :
    (s.withPending l).unloadDried k c = (s.unloadDried k c).withPending l := by
  simp [State.unloadDried]

@[simp] theorem State.withPending_kilnChange (k : KilnNo) (id : Nat) (kl : Kiln) (f : Charge → Charge) (kind : TraceKind) :
    (s.withPending l).kilnChange k id kl f kind = (s.kilnChange k id kl f kind).withPending l := by
  simp [State.kilnChange]

@[simp] theorem State.withPending_returnSchedule (c : Charge) (ch : Change) :
    (s.withPending l).returnSchedule c ch = (s.returnSchedule c ch).withPending l := by
  unfold State.returnSchedule
  split <;> rfl

@[simp] theorem State.withPending_applyChange (k : KilnNo) (c : Charge) (x : Schedule) (ch : Change)
    (more : Charge → Charge) (kind : TraceKind) :
    (s.withPending l).applyChange k c x ch more kind = (s.applyChange k c x ch more kind).withPending l := by
  simp [State.applyChange]

@[simp] theorem State.withPending_storeReport (k : KilnNo) (id : Nat) (rep : KilnReport) :
    (s.withPending l).storeReport k id rep = (s.storeReport k id rep).withPending l :=
  ite_withPending (by simp) rfl

/-! ## The kiln minute -/

@[simp] theorem minuteAge_withPending (k : KilnNo) (id : Nat) :
    minuteAge k id (s.withPending l) = (minuteAge k id s).withPending l :=
  ite_withPending (by simp) rfl

@[simp] theorem minuteCount_withPending (k : KilnNo) (st : ChargeState) :
    minuteCount k st (s.withPending l) = (minuteCount k st s).withPending l := rfl

@[simp] theorem State.withPending_setDeviation (k : KilnNo) (id : Nat) (d : Deviation) :
    (s.withPending l).setDeviation k id d = (s.setDeviation k id d).withPending l :=
  ite_withPending rfl (by simp)

@[simp] theorem minuteDeviation_withPending (k : KilnNo) (id : Nat) (st : ChargeState) :
    minuteDeviation k id st (s.withPending l) = (minuteDeviation k id st s).withPending l := by
  unfold minuteDeviation
  split <;> simp

@[simp] theorem minuteRamp_withPending (k : KilnNo) (st : ChargeState) (x : Schedule) :
    minuteRamp k st x (s.withPending l) = (minuteRamp k st x s).withPending l := by
  unfold minuteRamp
  split <;> rfl

@[simp] theorem minuteHeat_withPending (k : KilnNo) (c : Charge) :
    minuteHeat k c (s.withPending l) = (minuteHeat k c s).withPending l :=
  ite_withPending rfl (ite_withPending (ite_withPending (by simp) rfl) rfl)

@[simp] theorem minuteOvertime_withPending (k : KilnNo) (st : ChargeState) (x : Schedule) :
    minuteOvertime k st x (s.withPending l) = (minuteOvertime k st x s).withPending l :=
  ite_withPending rfl rfl

@[simp] theorem minuteTrigger_withPending (k : KilnNo) (c : Charge) (x : Schedule) :
    minuteTrigger k c x (s.withPending l) = (minuteTrigger k c x s).withPending l := by
  unfold minuteTrigger
  split
  · simp only [State.withPending_kiln, State.withPending_applyChange]
    split <;> rfl
  · rfl

@[simp] theorem minuteChart_withPending (k : KilnNo) (id : Nat) :
    minuteChart k id (s.withPending l) = (minuteChart k id s).withPending l :=
  ite_withPending (ite_withPending (by simp) rfl) rfl

@[simp] theorem State.withPending_kilnMinute (k : KilnNo) :
    (s.withPending l).kilnMinute k = (s.kilnMinute k).withPending l := by
  unfold State.kilnMinute
  simp only [State.withPending_kilnCharge, State.withPending_scheduleOf, State.withPending_kiln]
  split
  · split
    · exact ite_withPending (by simp [minuteParts]) rfl
    · rfl
  · rfl

/-! ## The label engine -/


@[simp] theorem State.withPending_beginCycle (lbsy : Bool) :
    (s.withPending l).beginCycle lbsy = (s.beginCycle lbsy).withPending l :=
  ite_withPending rfl rfl

@[simp] theorem State.withPending_startHead (lbsy : Bool) :
    (s.withPending l).startHead lbsy = (s.startHead lbsy).withPending l := by
  unfold State.startHead
  simp only [State.withPending_label, State.withPending_pack, State.withPending_labelFields]
  split
  · rfl
  · simp

@[simp] theorem State.withPending_appendJob (lbsy : Bool) (j : Job) :
    (s.withPending l).appendJob lbsy j = (s.appendJob lbsy j).withPending l :=
  ite_withPending (by simp) rfl

@[simp] theorem State.withPending_queuePack (lbsy : Bool) (id : Nat) :
    (s.withPending l).queuePack lbsy id = (s.queuePack lbsy id).withPending l := by
  simp [State.queuePack]

@[simp] theorem State.withPending_offerPack (lbsy : Bool) (id : Nat) :
    (s.withPending l).offerPack lbsy id = (s.offerPack lbsy id).withPending l :=
  ite_withPending (by simp) rfl

@[simp] theorem State.withPending_fillQueue (lbsy : Bool) :
    (s.withPending l).fillQueue lbsy = (s.fillQueue lbsy).withPending l :=
  foldl_withPending (fun _ _ => State.withPending_queuePack lbsy _) _


@[simp] theorem State.withPending_finishPack (j : Job) :
    (s.withPending l).finishPack j = (s.finishPack j).withPending l := by
  unfold State.finishPack
  split <;> rfl

@[simp] theorem State.withPending_completeJob (lbsy : Bool) (j : Job) (rest : List Job) :
    (s.withPending l).completeJob lbsy j rest = (s.completeJob lbsy j rest).withPending l := by
  unfold State.completeJob
  dsimp only
  rw [State.withPending_finishPack, State.withPending_label, State.withPending_withLabel, State.withPending_fillQueue]
  exact ite_withPending (by simp) rfl

@[simp] theorem State.withPending_verify (lbsy : Bool) (bs : List Byte) :
    (s.withPending l).verify lbsy bs = (s.verify lbsy bs).withPending l := by
  unfold State.verify
  simp only [State.withPending_label, State.withPending_withLabel]
  split
  · rfl
  · exact ite_withPending (by simp) rfl

@[simp] theorem State.withPending_fieldEnd (lbsy : Bool) (next : LabelEngine) :
    (s.withPending l).fieldEnd lbsy next = (s.fieldEnd lbsy next).withPending l :=
  ite_withPending rfl (by simp)

@[simp] theorem State.withPending_sendNext (lbsy : Bool) (k : Nat) :
    (s.withPending l).sendNext lbsy k = (s.sendNext lbsy k).withPending l :=
  ite_withPending (by simp) (ite_withPending (by simp) (by simp))

@[simp] theorem State.withPending_readNext (lbsy : Bool) (ld : Byte) :
    (s.withPending l).readNext lbsy ld = (s.readNext lbsy ld).withPending l :=
  ite_withPending (by simp) (by simp)

@[simp] theorem State.withPending_cycleEnd (lbsy : Bool) (ld : Byte) :
    (s.withPending l).cycleEnd lbsy ld = (s.cycleEnd lbsy ld).withPending l := by
  unfold State.cycleEnd
  simp only [State.withPending_label, State.withPending_withLabel]
  split
  · split <;> simp
  · rfl

@[simp] theorem State.withPending_busyFalls : (s.withPending l).busyFalls = s.busyFalls.withPending l := by
  unfold State.busyFalls
  simp only [State.withPending_label]
  split <;> rfl

@[simp] theorem State.withPending_busyTimeout : (s.withPending l).busyTimeout = s.busyTimeout.withPending l := by
  unfold State.busyTimeout
  simp only [State.withPending_label]
  split <;> rfl

@[simp] theorem State.withPending_resumed (lbsy : Bool) :
    (s.withPending l).resumed lbsy = (s.resumed lbsy).map (State.withPending · l) := by
  unfold State.resumed
  simp only [State.withPending_label, State.withPending_startHead, State.withPending_withLabel]
  split
  · exact ite_through (Option.map _) rfl rfl
  · exact ite_through (Option.map _) rfl rfl
  · exact ite_through (Option.map _) rfl rfl
  · rfl

/-! ## Lots and packs -/

/-- An answer that stands beside a state, with another queue in that state. -/
def carry {α : Type} (l : List Instr) (x : State × α) : State × α := (x.1.withPending l, x.2)

@[simp] theorem carry_mk {α : Type} (a : α) : carry l (s, a) = (s.withPending l, a) := rfl
@[simp] theorem carry_fst {α : Type} (x : State × α) : (carry l x).1 = x.1.withPending l := rfl
@[simp] theorem carry_snd {α : Type} (x : State × α) : (carry l x).2 = x.2 := rfl

@[simp] theorem State.withPending_joinLot (x : Lot) (charge volume : Nat) :
    (s.withPending l).joinLot x charge volume = (s.joinLot x charge volume).withPending l :=
  ite_withPending rfl rfl

@[simp] theorem State.withPending_handToLot (sp th charge volume : Nat) :
    (s.withPending l).handToLot sp th charge volume = carry l (s.handToLot sp th charge volume) := by
  unfold State.handToLot
  simp only [State.withPending_openLot]
  split
  · simp
  · exact ite_through (carry l) (by simp) rfl

@[simp] theorem State.withPending_closePack (lbsy : Bool) (id : Nat) (cause : CloseCause) :
    (s.withPending l).closePack lbsy id cause = (s.closePack lbsy id cause).withPending l := by
  simp [State.closePack]

@[simp] theorem State.withPending_addBoard (lbsy : Bool) (q : Pack) (b : HandedBoard) :
    (s.withPending l).addBoard lbsy q b = (s.addBoard lbsy q b).withPending l := by
  have added : (if joinLists q.contributors b.charge then
        ((s.withPending l).modifyPack q.id fun _ => q.add b).addRef b.charge
      else (s.withPending l).modifyPack q.id fun _ => q.add b) =
      (if joinLists q.contributors b.charge then (s.modifyPack q.id fun _ => q.add b).addRef b.charge
      else s.modifyPack q.id fun _ => q.add b).withPending l :=
    ite_withPending rfl rfl
  unfold State.addBoard
  simp only [added, State.withPending_target]
  split
  · simp
  · rfl

@[simp] theorem State.withPending_refuseBoard : (s.withPending l).refuseBoard = s.refuseBoard.withPending l :=
  ite_withPending rfl rfl

@[simp] theorem State.withPending_openForBoard (lbsy : Bool) (bin : Nat) (b : HandedBoard) :
    (s.withPending l).openForBoard lbsy bin b = carry l (s.openForBoard lbsy bin b) :=
  ite_through (carry l) (by simp) (by simp)

@[simp] theorem State.withPending_handToBin (lbsy : Bool) (bin : Nat) (b : HandedBoard) :
    (s.withPending l).handToBin lbsy bin b = carry l (s.handToBin lbsy bin b) := by
  unfold State.handToBin
  simp only [State.withPending_openPack]
  split
  · exact ite_through (carry l) (by simp) (by simp)
  · simp

/-! ## The planer tracker -/

@[simp] theorem State.withPending_loseOldest (n : Run) : (s.withPending l).loseOldest n = carry l (s.loseOldest n) := by
  unfold State.loseOldest
  split <;> rfl

@[simp] theorem State.withPending_roomInB (n : Run) : (s.withPending l).roomInB n = carry l (s.roomInB n) :=
  ite_through (carry l) (by simp) rfl

@[simp] theorem State.withPending_overrunA (n : Run) : (s.withPending l).overrunA n = carry l (s.overrunA n) := by
  unfold State.overrunA
  split
  · rfl
  · simp

@[simp] theorem State.withPending_boardArrives (n : Run) :
    (s.withPending l).boardArrives n = (s.boardArrives n).withPending l := by
  have room : (if Config.queueABoards ≤ n.queueA.length then (s.withPending l).overrunA n else (s.withPending l, n)) =
      carry l (if Config.queueABoards ≤ n.queueA.length then s.overrunA n else (s, n)) :=
    ite_through (carry l) (by simp) rfl
  unfold State.boardArrives
  simp only [room, carry_fst, carry_snd]
  rfl


@[simp] theorem State.withPending_eyeRises : (s.withPending l).eyeRises = s.eyeRises.withPending l := by
  refine ite_withPending rfl ?_
  simp only [State.withPending_tracker, State.withPending_withTracker, State.withPending_runOpen]
  split
  · simp
  · rfl

@[simp] theorem State.withPending_feedBack (b : Board) : (s.withPending l).feedBack b = (s.feedBack b).withPending l := by
  unfold State.feedBack
  simp only [State.withPending_charge]
  split
  · simp
  · rfl

@[simp] theorem State.withPending_pairFrame (n : Run) (f : MeterFrame) (b : Board) (rest : List Board) :
    (s.withPending l).pairFrame n f b rest = (s.pairFrame n f b rest).withPending l := by
  simp [State.pairFrame]

@[simp] theorem State.withPending_frameInRun (n : Run) (f : MeterFrame) :
    (s.withPending l).frameInRun n f = (s.frameInRun n f).withPending l := by
  unfold State.frameInRun
  simp only [State.withPending_param, State.withPending_withRun, State.withPending_raiseIf]
  split <;> simp

@[simp] theorem State.withPending_frameArrives (f : MeterFrame) :
    (s.withPending l).frameArrives f = (s.frameArrives f).withPending l := by
  unfold State.frameArrives
  simp only [State.withPending_tracker, State.withPending_withTracker]
  split
  · simp
  · rfl

@[simp] theorem State.withPending_fifthByte (x : MeterByte) :
    (s.withPending l).fifthByte x = (s.fifthByte x).withPending l :=
  ite_withPending (by simp) rfl

@[simp] theorem State.withPending_meterIdle : (s.withPending l).meterIdle = s.meterIdle.withPending l :=
  ite_withPending rfl (by simp)

@[simp] theorem State.withPending_sortToBin (lbsy : Bool) (n : Run) (b : Board) (g : GradeReport) :
    (s.withPending l).sortToBin lbsy n b g = carry l (s.sortToBin lbsy n b g) := by
  unfold State.sortToBin
  simp only [State.withPending_library, State.withPending_tracker, State.withPending_volumeOf, State.withPending_handToBin,
    carry_fst, carry_snd]
  split
  · rfl
  · split <;> rfl

@[simp] theorem State.withPending_sortBoard (lbsy : Bool) (n : Run) (b : Board) (g : GradeReport) :
    (s.withPending l).sortBoard lbsy n b g = carry l (s.sortBoard lbsy n b g) := by
  unfold State.sortBoard
  simp only [State.withPending_volumeOf, State.withPending_handToLot, carry_fst, carry_snd]
  split
  · split <;> rfl
  · exact ite_through (carry l) rfl (by simp)

@[simp] theorem State.withPending_dispatch (n : Run) (b : Board) (d : Decision) :
    (s.withPending l).dispatch n b d = (s.dispatch n b d).withPending l :=
  ite_withPending rfl rfl

/-! ## Frames and arrivals -/

@[simp] theorem State.withPending_accept (p : Port) (r : Request) :
    (s.withPending l).accept p r = (s.accept p r).withPending l := by
  unfold State.accept
  dsimp only
  split <;> rfl

@[simp] theorem State.withPending_setNotes (p : Port) (v : BitVec 4) :
    (s.withPending l).setNotes p v = (s.setNotes p v).withPending l :=
  ite_withPending rfl rfl

@[simp] theorem State.withPending_deadFrameEvent (p : Port) (e : FrameEvent) :
    (s.withPending l).deadFrameEvent p e = (s.deadFrameEvent p e).withPending l := by
  cases e <;> rfl

@[simp] theorem State.withPending_arrive (p : Port) (ticket : BitVec 32) (a : Answer) :
    (s.withPending l).arrive p ticket a = (s.arrive p ticket a).withPending l := by
  unfold State.arrive
  simp only [State.withPending_port, State.withPending_enterBuffer, State.withPending_setPort]
  split
  · refine ite_withPending ?_ rfl
    split <;> rfl
  · rfl

/-! ## RESTART and the starts -/

@[simp] theorem State.withPending_restartCharges (why : HoldReason) :
    (s.withPending l).restartCharges why = (s.restartCharges why).withPending l := rfl

@[simp] theorem State.withPending_restartPacks : (s.withPending l).restartPacks = s.restartPacks.withPending l := rfl

@[simp] theorem State.withPending_restartTracker (eye : Bool) :
    (s.withPending l).restartTracker eye = (s.restartTracker eye).withPending l := rfl

@[simp] theorem State.withPending_restartLabel (lbsy : Bool) :
    (s.withPending l).restartLabel lbsy = (s.restartLabel lbsy).withPending l := by
  simp [State.restartLabel]

@[simp] theorem State.withPending_restartBlocks (why : HoldReason) (eye lbsy : Bool) :
    (s.withPending l).restartBlocks why eye lbsy = (s.restartBlocks why eye lbsy).withPending l := by
  simp [State.restartBlocks]

@[simp] theorem State.withPending_restarted (p : Port) (r : Request) (eye lbsy : Bool) :
    (s.withPending l).restarted p r eye lbsy = (s.restarted p r eye lbsy).withPending l := by
  simp [State.restarted]

@[simp] theorem State.withPending_warmStarted (eye lbsy : Bool) :
    (s.withPending l).warmStarted eye lbsy = (s.warmStarted eye lbsy).withPending l := by
  simp [State.warmStarted]

@[simp] theorem State.withPending_warmCut (charges packs : Bool) (records : Nat) :
    (s.withPending l).warmCut charges packs records = (s.warmCut charges packs records).withPending l := by
  cases charges <;> cases packs <;> simp [State.warmCut]

end
end Sys2Proof.Machine
end

section
/-! SUPPORT. Every act of a take passes the queue of waiting commands on, and so does every transfer and every event. -/

namespace Sys2Proof.Machine

/-! ## What an act answers -/

/-- `y` answers what `x` answers: the same refusal, or the same body beside the same state with the queue `l`. -/
def Carried (l : List Instr) (x y : Except Reason (State × List Field)) : Prop := y = carry l <$> x

/-- An act that neither reads nor changes the queue of waiting commands. -/
def Act.PassesQueue (act : Act) : Prop := ∀ p r s l, Carried l (act p r s) (act p r (s.withPending l))

section
variable {l : List Instr} {s t : State}

theorem Carried.bind {α : Type} {x : Except Reason α} {f g : α → Except Reason (State × List Field)}
    (h : ∀ a, Carried l (f a) (g a)) : Carried l (x >>= f) (x >>= g) := by
  cases x with
  | error e => rfl
  | ok a => exact h a

theorem Carried.pure {b : List Field} (h : t = s.withPending l) : Carried l (pure (s, b)) (pure (t, b)) := by
  rw [h]
  rfl

theorem Carried.error (e : Reason) : Carried l (.error e) (.error e) := rfl

theorem Carried.ite {c : Prop} [Decidable c] {x y x' y' : Except Reason (State × List Field)} (hx : Carried l x x')
    (hy : Carried l y y') : Carried l (if c then x else y) (if c then x' else y') :=
  ite_through (carry l <$> ·) hx hy

end

/-! ## Claims, the clock, the library and the trace log -/

theorem claimAct_passesQueue : Act.PassesQueue claimAct := fun p r s l => by
  refine .bind fun res => ?_
  simp only [State.withPending_claim]
  split
  · exact .pure rfl
  · exact .ite (.pure rfl) (.error _)

theorem releaseAct_passesQueue : Act.PassesQueue releaseAct := fun _ _ _ _ => .bind fun _ => .bind fun _ => .pure rfl

theorem seizeAct_passesQueue : Act.PassesQueue seizeAct := fun _ _ _ _ => .bind fun _ => .pure (by simp)

theorem setClockAct_passesQueue : Act.PassesQueue setClockAct := fun _ _ _ _ => .bind fun _ => .pure rfl

theorem putSpeciesAct_passesQueue : Act.PassesQueue putSpeciesAct := fun _ _ _ _ => .bind fun _ => .bind fun _ => .pure rfl

theorem deleteSpeciesAct_passesQueue : Act.PassesQueue deleteSpeciesAct := fun _ _ _ _ =>
  .bind fun _ => .bind fun _ => .bind fun _ => .bind fun _ => .pure rfl

theorem speciesQueryAct_passesQueue : Act.PassesQueue speciesQueryAct := fun _ _ _ _ => .bind fun _ => .bind fun _ => .pure rfl

theorem putScheduleAct_passesQueue : Act.PassesQueue putScheduleAct := fun _ _ _ _ =>
  .bind fun _ => .bind fun _ => .bind fun _ => .pure rfl

theorem deleteScheduleAct_passesQueue : Act.PassesQueue deleteScheduleAct := fun _ _ _ _ =>
  .bind fun _ => .bind fun _ => .bind fun _ => .bind fun _ => .pure rfl

theorem scheduleQueryAct_passesQueue : Act.PassesQueue scheduleQueryAct := fun _ _ _ _ => .bind fun _ => .bind fun _ => .pure rfl

theorem putGradeTextAct_passesQueue : Act.PassesQueue putGradeTextAct := fun _ _ _ _ =>
  .bind fun _ => .bind fun _ => .pure (ite_withPending rfl rfl)

theorem putLengthBandsAct_passesQueue : Act.PassesQueue putLengthBandsAct := fun _ _ _ _ =>
  .bind fun _ => .bind fun _ => .pure rfl

theorem putParameterAct_passesQueue : Act.PassesQueue putParameterAct := fun _ _ _ _ => by
  refine .bind fun _ => .bind fun x => ?_
  dsimp only
  split <;> exact .pure rfl

theorem parameterQueryAct_passesQueue : Act.PassesQueue parameterQueryAct := fun _ _ _ _ =>
  .bind fun _ => .ite (.pure rfl) (.ite (.pure rfl) (.pure rfl))

theorem traceReadAct_passesQueue : Act.PassesQueue traceReadAct := fun _ _ _ _ => .bind fun _ => .bind fun _ => .pure rfl

theorem setTraceMarkAct_passesQueue : Act.PassesQueue setTraceMarkAct := fun _ _ _ _ => .bind fun _ => .pure (by simp)

/-! ## Charges and kilns -/

theorem defineChargeAct_passesQueue : Act.PassesQueue defineChargeAct := fun _ _ _ _ =>
  .bind fun _ => .bind fun _ => .bind fun _ => .pure rfl

theorem setSamplesAct_passesQueue : Act.PassesQueue setSamplesAct := fun _ _ _ _ =>
  .bind fun _ => .bind fun _ => .bind fun _ => .pure (by simp)

theorem sampleWeightsAct_passesQueue : Act.PassesQueue sampleWeightsAct := fun _ _ _ _ =>
  .bind fun _ => .bind fun _ => .bind fun _ => .bind fun _ => .bind fun _ => .pure (by simp)

theorem loadAct_passesQueue : Act.PassesQueue loadAct := fun _ _ _ _ =>
  .bind fun _ => .bind fun _ => .bind fun _ => .bind fun _ => .bind fun _ => .bind fun _ => .bind fun _ => .bind fun _ =>
    .pure (by simp)

theorem unloadAct_passesQueue : Act.PassesQueue unloadAct := fun _ _ _ _ => by
  refine .bind fun _ => .bind fun _ => .bind fun _ => .bind fun _ => .bind fun _ => .bind fun _ => ?_
  split
  · exact .pure (by simp)
  · exact .pure (by simp)
  · exact .error _

theorem retireChargeAct_passesQueue : Act.PassesQueue retireChargeAct := fun _ _ _ _ =>
  .bind fun _ => .bind fun _ => .bind fun _ => .bind fun _ => .pure rfl

theorem chargeQueryAct_passesQueue : Act.PassesQueue chargeQueryAct := fun _ _ _ _ =>
  .bind fun _ => .ite (.pure rfl) (.bind fun _ => .pure rfl)

theorem kilnReportAct_passesQueue : Act.PassesQueue kilnReportAct := fun _ _ _ _ => by
  refine .bind fun _ => ?_
  simp only [State.withPending_reportingCharge]
  split
  · exact .pure (by simp)
  · exact .pure rfl

/-- A state that may be refused, handed to an answer that reads nothing of its queue. -/
theorem Carried.orRefuse {l : List Instr} {x y : Option State} {e : Reason} {f : State → List Field}
    (h : y = x.map (State.withPending · l)) (hf : ∀ t, f (t.withPending l) = f t) :
    Carried l (orRefuse x e >>= fun t => Pure.pure (t, f t)) (orRefuse y e >>= fun t => Pure.pure (t, f t)) := by
  subst h
  cases x with
  | none => rfl
  | some t => exact congrArg (fun b => Except.ok (t.withPending l, b)) (hf t)

/-- A kiln command passes the queue on where its rule does. -/
theorem kilnCommand_passesQueue {rule : KilnNo → Charge → Schedule → State → Option State}
    (h : ∀ k c x s l, rule k c x (s.withPending l) = (rule k c x s).map (State.withPending · l)) :
    Act.PassesQueue (kilnCommand rule) := fun _ _ s l =>
  .bind fun k => .bind fun _ => .bind fun c => .bind fun x => .orRefuse (h k c x s l) fun _ => rfl

theorem startRule_passesQueue : Act.PassesQueue (kilnCommand startRule) := kilnCommand_passesQueue fun k c x s l => by
  unfold startRule
  split <;> simp

theorem holdRule_passesQueue : Act.PassesQueue (kilnCommand holdRule) := kilnCommand_passesQueue fun k c x s l => by
  unfold holdRule
  split <;> simp

theorem resumeRule_passesQueue : Act.PassesQueue (kilnCommand resumeRule) := kilnCommand_passesQueue fun k c x s l => by
  unfold resumeRule
  split <;> simp

theorem skipStepRule_passesQueue : Act.PassesQueue (kilnCommand skipStepRule) := kilnCommand_passesQueue fun k c x s l => by
  unfold skipStepRule
  split <;> simp

theorem stopRule_passesQueue : Act.PassesQueue (kilnCommand stopRule) := kilnCommand_passesQueue fun k c x s l =>
  ite_through (Option.map _) (by simp) rfl

theorem kilnStatusAct_passesQueue : Act.PassesQueue kilnStatusAct := fun _ _ _ _ => .bind fun _ => .pure rfl

/-! ## The planer line -/

theorem openRunAct_passesQueue : Act.PassesQueue openRunAct := fun _ _ _ _ =>
  .bind fun _ => .bind fun _ => .bind fun _ => .bind fun _ => .bind fun _ => .pure rfl

theorem addSourceAct_passesQueue : Act.PassesQueue addSourceAct := fun _ _ _ _ =>
  .bind fun _ => .bind fun _ => .bind fun _ => .bind fun _ => .bind fun _ => .bind fun _ => .bind fun _ => .pure rfl

theorem advanceSourceAct_passesQueue : Act.PassesQueue advanceSourceAct := fun _ _ _ _ => by
  refine .bind fun _ => .bind fun _ => ?_
  dsimp only
  split
  · exact .pure rfl
  · exact .error _

theorem closeRunAct_passesQueue : Act.PassesQueue closeRunAct := fun _ _ _ _ =>
  .bind fun _ => .bind fun _ => .ite (.pure (by simp)) (.pure (by simp))

theorem abortRunAct_passesQueue : Act.PassesQueue abortRunAct := fun _ _ s l => by
  refine .bind fun _ => .bind fun n => .pure ?_
  rw [foldl_withPending fun _ _ => rfl]
  rfl

theorem boardGradeAct_passesQueue (lbsy : Bool) : Act.PassesQueue (boardGradeAct lbsy) := fun _ _ _ _ => by
  refine .bind fun _ => .bind fun _ => .bind fun _ => .bind fun _ => ?_
  simp only [State.withPending_sortBoard, carry_fst, carry_snd]
  exact .pure (by simp)

theorem putSortEntryAct_passesQueue : Act.PassesQueue putSortEntryAct := fun _ _ _ _ =>
  .bind fun _ => .bind fun _ => .bind fun _ => .pure rfl

theorem removeSortEntryAct_passesQueue : Act.PassesQueue removeSortEntryAct := fun _ _ _ _ =>
  .bind fun _ => .bind fun _ => .bind fun _ => .pure rfl

theorem clearSortMapAct_passesQueue : Act.PassesQueue clearSortMapAct := fun _ _ _ _ => .bind fun _ => .pure rfl

theorem runStatusAct_passesQueue : Act.PassesQueue runStatusAct := fun _ _ _ _ => by
  refine .bind fun _ => ?_
  split <;> exact .pure rfl

/-! ## Lots and packs -/

theorem closeLotAct_passesQueue : Act.PassesQueue closeLotAct := fun _ _ _ _ =>
  .bind fun _ => .bind fun _ => .bind fun _ => .pure rfl

theorem convertLotAct_passesQueue : Act.PassesQueue convertLotAct := fun _ _ _ _ =>
  .bind fun _ => .bind fun _ => .bind fun _ => .pure (by simp [State.nextChargeId])

theorem lotQueryAct_passesQueue : Act.PassesQueue lotQueryAct := fun _ _ _ _ =>
  .bind fun _ => .ite (.pure rfl) (.bind fun _ => .pure rfl)

theorem setBinTargetAct_passesQueue (lbsy : Bool) : Act.PassesQueue (setBinTargetAct lbsy) := fun _ _ _ _ => by
  refine .bind fun _ => .bind fun _ => .pure ?_
  simp only [State.withPending_meeting, State.withPending_setTarget]
  split
  · simp
  · rfl

theorem closePackAct_passesQueue (lbsy : Bool) : Act.PassesQueue (closePackAct lbsy) := fun _ _ _ _ => by
  refine .bind fun _ => .bind fun _ => ?_
  simp only [State.withPending_closePack, State.withPending_pack]
  exact .pure rfl

theorem releasePackAct_passesQueue : Act.PassesQueue releasePackAct := fun _ _ _ _ =>
  .bind fun _ => .bind fun _ => .bind fun _ => .bind fun _ => .pure (by simp)

theorem packQueryAct_passesQueue : Act.PassesQueue packQueryAct := fun _ _ _ _ => by
  refine .bind fun _ => ?_
  split
  · exact .bind fun _ => .pure rfl
  all_goals exact .pure rfl

/-! ## The printer -/

theorem reprintAct_passesQueue (lbsy : Bool) : Act.PassesQueue (reprintAct lbsy) := fun _ _ _ _ =>
  .bind fun _ => .bind fun _ => .bind fun _ => .bind fun _ => .bind fun _ => .pure (by simp)

theorem haltPrinterAct_passesQueue : Act.PassesQueue haltPrinterAct := fun _ _ _ _ => .bind fun _ => .bind fun _ => .pure rfl

theorem resumePrinterAct_passesQueue (lbsy : Bool) : Act.PassesQueue (resumePrinterAct lbsy) := fun _ _ _ _ =>
  .bind fun _ => .orRefuse (State.withPending_resumed lbsy) fun _ => rfl

theorem printerStatusAct_passesQueue : Act.PassesQueue printerStatusAct := fun _ _ _ _ => .pure rfl

/-- The act of every take passes the queue on. -/
theorem actOf_passesQueue {c : Instr} {x : Port × Byte} (h : takenBy c = some x) : Act.PassesQueue (actOf c) := by
  cases c with
  | claim => exact claimAct_passesQueue
  | release => exact releaseAct_passesQueue
  | seize => exact seizeAct_passesQueue
  | putSpecies => exact putSpeciesAct_passesQueue
  | deleteSpecies => exact deleteSpeciesAct_passesQueue
  | speciesQuery => exact speciesQueryAct_passesQueue
  | putSchedule => exact putScheduleAct_passesQueue
  | deleteSchedule => exact deleteScheduleAct_passesQueue
  | scheduleQuery => exact scheduleQueryAct_passesQueue
  | putGradeText => exact putGradeTextAct_passesQueue
  | putLengthBands => exact putLengthBandsAct_passesQueue
  | defineCharge => exact defineChargeAct_passesQueue
  | setSamples => exact setSamplesAct_passesQueue
  | load => exact loadAct_passesQueue
  | unload => exact unloadAct_passesQueue
  | retireCharge => exact retireChargeAct_passesQueue
  | chargeQuery => exact chargeQueryAct_passesQueue
  | sampleWeights => exact sampleWeightsAct_passesQueue
  | kilnReport => exact kilnReportAct_passesQueue
  | start => exact startRule_passesQueue
  | hold => exact holdRule_passesQueue
  | resume => exact resumeRule_passesQueue
  | skipStep => exact skipStepRule_passesQueue
  | stop => exact stopRule_passesQueue
  | kilnStatus => exact kilnStatusAct_passesQueue
  | openRun => exact openRunAct_passesQueue
  | addSource => exact addSourceAct_passesQueue
  | advanceSource => exact advanceSourceAct_passesQueue
  | closeRun => exact closeRunAct_passesQueue
  | abortRun => exact abortRunAct_passesQueue
  | boardGrade => exact boardGradeAct_passesQueue _
  | putSortEntry => exact putSortEntryAct_passesQueue
  | removeSortEntry => exact removeSortEntryAct_passesQueue
  | clearSortMap => exact clearSortMapAct_passesQueue
  | runStatus => exact runStatusAct_passesQueue
  | closeLot => exact closeLotAct_passesQueue
  | convertLot => exact convertLotAct_passesQueue
  | lotQuery => exact lotQueryAct_passesQueue
  | setBinTarget => exact setBinTargetAct_passesQueue _
  | closePack => exact closePackAct_passesQueue _
  | releasePack => exact releasePackAct_passesQueue
  | packQuery => exact packQueryAct_passesQueue
  | reprint => exact reprintAct_passesQueue _
  | haltPrinter => exact haltPrinterAct_passesQueue
  | resumePrinter => exact resumePrinterAct_passesQueue _
  | printerStatus => exact printerStatusAct_passesQueue
  | traceRead => exact traceReadAct_passesQueue
  | setTraceMark => exact setTraceMarkAct_passesQueue
  | setClock => exact setClockAct_passesQueue
  | putParameter => exact putParameterAct_passesQueue
  | parameterQuery => exact parameterQueryAct_passesQueue
  | _ => cases h

end Sys2Proof.Machine
end

section
/-! SUPPORT. Every command answers a next state, and beside another queue of waiting commands the same one with that queue. -/

namespace Sys2Proof.Machine

/-- A command's meaning that answers a next state from every state, and passes the queue of waiting commands on unread. -/
def PassesQueue (run : State → Result) : Prop :=
  ∀ s l, ∃ t, run s = .next t ∧ run (s.withPending l) = .next (t.withPending l)

/-- A meaning that answers one state, which passes the queue on. -/
theorem PassesQueue.next {f : State → State} (h : ∀ s l, f (s.withPending l) = (f s).withPending l) :
    PassesQueue fun s => .next (f s) := fun s l => ⟨f s, rfl, congrArg _ (h s l)⟩

theorem event_passesQueue {f : State → State} (h : ∀ s l, f (s.withPending l) = (f s).withPending l) :
    PassesQueue (event f) :=
  .next fun s l => ite_withPending (h s l) rfl

/-! ## Takes -/

theorem answered_withPending {act : Act} (h : act.PassesQueue) (p : Port) (r : Request) (s : State) (l : List Instr) :
    answered act p r (s.withPending l) = (answered act p r s).withPending l := by
  unfold answered
  rw [h p r s l]
  cases act p r s <;> rfl

theorem takeRequest_passesQueue {act : Act} (h : act.PassesQueue) (code : Byte) (p : Port) :
    PassesQueue (takeRequest code act p) :=
  event_passesQueue fun s l => by
    simp only [State.withPending_offered, answered_withPending h]
    split <;> rfl

/-! ## Transfers -/

/-- What the end of a complete frame does passes the queue on. -/
def FrameActPasses (act : OpenFrame → State → State × LastResult) : Prop :=
  ∀ f s l, act f (s.withPending l) = carry l (act f s)

theorem endFrame_withPending {x : Transfer} (h : FrameActPasses x.act) (p : Port) (f : OpenFrame) (s : State)
    (l : List Instr) : (s.withPending l).endFrame x p f = (s.endFrame x p f).withPending l := by
  refine ite_withPending rfl (ite_withPending ?_ rfl)
  have closed : (s.withPending l).closeFrame p f = (s.closeFrame p f).withPending l := rfl
  rw [closed, h]
  rfl

theorem transfer_passesQueue {x : Transfer} (h : FrameActPasses x.act) (p : Port) (e : FrameEvent) :
    PassesQueue (transfer x p e) :=
  .next fun s l => ite_withPending (State.withPending_deadFrameEvent p e) <| by
    cases e with
    | rises bs => exact endFrame_withPending h p _ s l
    | _ => rfl

theorem idle_passesQueue (r : LastResult) : FrameActPasses fun _ t => (t, r) := fun _ _ _ => rfl

theorem postAct_passesQueue (p : Port) : FrameActPasses (postAct p) := fun f s l => by
  refine ite_through (carry l) rfl ?_
  simp only [State.withPending_port, State.withPending_accept]
  split <;> rfl

theorem withdrawAct_passesQueue (p : Port) : FrameActPasses (withdrawAct p) := fun _ s l => by
  unfold withdrawAct
  simp only [State.withPending_port]
  split <;> rfl

theorem fetchAct_passesQueue (p : Port) : FrameActPasses (fetchAct p) := fun f s l => by
  unfold fetchAct
  simp only [State.withPending_port]
  split
  · rfl
  · split <;> rfl

theorem noteAct_passesQueue (p : Port) : FrameActPasses (noteAct p) := fun _ _ _ => by simp [noteAct]

theorem ackAct_passesQueue (p : Port) : FrameActPasses (ackAct p) := fun _ _ _ => rfl

theorem maskAct_passesQueue (p : Port) : FrameActPasses (maskAct p) := fun _ _ _ => rfl

theorem portResetAct_passesQueue (p : Port) : FrameActPasses (portResetAct p) := fun _ _ _ => by simp [portResetAct]

theorem execUnknownTransfer_passesQueue (p : Port) (kind : Byte) (e : FrameEvent) :
    PassesQueue (execUnknownTransfer p kind e) := by
  unfold execUnknownTransfer
  split
  · exact transfer_passesQueue (idle_passesQueue _) p e
  · exact .next fun _ _ => rfl

/-! ## Arrivals, RESTART and the starts -/

theorem execAnswerArrival_passesQueue (p : Port) (which : Nat) : PassesQueue (execAnswerArrival p which) :=
  event_passesQueue fun s l => by
    simp only [State.withPending_port, State.withPending_setPort, State.withPending_arrive]
    split <;> rfl

theorem execRestart_passesQueue (p : Port) (eye lbsy : Bool) : PassesQueue (execRestart p eye lbsy) :=
  event_passesQueue fun s l => by
    simp only [State.withPending_offered, State.withPending_restarted]
    split <;> rfl

theorem execWarmStart_passesQueue (eye lbsy : Bool) (e : StartEnd) : PassesQueue (execWarmStart eye lbsy e) :=
  .next fun s l => ite_withPending (by cases e <;> simp) rfl

/-! ## Every command -/

theorem exec_passesQueue (c : Instr) : PassesQueue (exec c) := by
  cases ht : takenBy c with
  | some x =>
    rw [show exec c = takeRequest x.2 (actOf c) x.1 from funext (exec_take ht)]
    exact takeRequest_passesQueue (actOf_passesQueue ht) x.2 x.1
  | none =>
    cases c with
    | post p e => exact transfer_passesQueue (postAct_passesQueue p) p e
    | withdraw p e => exact transfer_passesQueue (withdrawAct_passesQueue p) p e
    | fetch p e => exact transfer_passesQueue (fetchAct_passesQueue p) p e
    | peek p e => exact transfer_passesQueue (idle_passesQueue _) p e
    | note p e => exact transfer_passesQueue (noteAct_passesQueue p) p e
    | ack p e => exact transfer_passesQueue (ackAct_passesQueue p) p e
    | mask p e => exact transfer_passesQueue (maskAct_passesQueue p) p e
    | portReset p e => exact transfer_passesQueue (portResetAct_passesQueue p) p e
    | unknownTransfer p kind e => exact execUnknownTransfer_passesQueue p kind e
    | answerArrival p which => exact execAnswerArrival_passesQueue p which
    | kilnMinuteExpiry k => exact event_passesQueue fun _ _ => State.withPending_kilnMinute k
    | millClockMinute => exact .next fun _ _ => rfl
    | eyeEdge => exact event_passesQueue fun _ _ => State.withPending_eyeRises
    | meterFrame b err => exact event_passesQueue fun _ _ => State.withPending_fifthByte _
    | meterIdleTimeout => exact event_passesQueue fun _ _ => State.withPending_meterIdle
    | busCycleComplete lbsy ld => exact event_passesQueue fun _ _ => State.withPending_cycleEnd lbsy ld
    | lbsyFall => exact event_passesQueue fun _ _ => State.withPending_busyFalls
    | printerTimeout => exact event_passesQueue fun _ _ => State.withPending_busyTimeout
    | meterByteReceived b err => exact event_passesQueue fun _ _ => rfl
    | eyeFilteredFall => exact event_passesQueue fun _ _ => rfl
    | restart p eye lbsy => exact execRestart_passesQueue p eye lbsy
    | powerOnReset => exact .next fun _ _ => rfl
    | coldStart eye cut => exact .next fun _ _ => ite_withPending rfl rfl
    | warmStart eye lbsy e => exact execWarmStart_passesQueue eye lbsy e
    | backupMonitorTrip => exact .next fun _ _ => ite_withPending rfl rfl
    | mainPowerFail vbkLow => exact .next fun _ _ => ite_withPending rfl rfl
    | _ => cases ht

/-- A step with a command waiting runs the one at the front with the queue's rest. -/
theorem step_cons {c : Instr} {rest : List Instr} {s : State} (h : s.pending = c :: rest) :
    step s = exec c (s.withPending rest) := by
  unfold step
  rw [h]

/-- A step with no command waiting idles. -/
theorem step_nil {s : State} (h : s.pending = []) : step s = .next s := by
  unfold step
  rw [h]

end Sys2Proof.Machine

open Sys2Proof Sys2Proof.Machine in
/-- Settles O1, by the branch of `step` for a queue that is not empty. -/
theorem stepRunsTheFrontCommand : Obligations.StepRunsTheFrontCommand := by
  unfold Obligations.StepRunsTheFrontCommand
  exact fun _ _ _ waiting => step_cons waiting

open Sys2Proof Sys2Proof.Machine in
/-- Settles O2: every command's meaning passes the queue on, and no command changes the block of the queue. -/
theorem everyCommandAnswersAndLeavesTheQueue : Obligations.EveryCommandAnswersAndLeavesTheQueue := by
  unfold Obligations.EveryCommandAnswersAndLeavesTheQueue
  refine ⟨fun c s l => ?_, fun _ idle => step_nil idle⟩
  obtain ⟨t, answer, requeued⟩ := exec_passesQueue c s l
  exact ⟨t, answer, exec_blocks answer .queue rfl, requeued⟩

end
